-- ==== Sys2Proof/Word.lean ====
section
/-! DEFINITION. The word types of the block (00_scope.md R5, R7): every value is an unsigned bit vector of stated width. -/

namespace Sys2Proof

/-- A register or transport word: 16 bits (00_scope.md R5). -/
abbrev Word := BitVec 16

/-- An 8-bit value: the narrow accumulator, an opcode, a verdict, a register address. -/
abbrev Byte := BitVec 8

/-- A command word of format C48 (30_encoding.md R60). -/
abbrev CmdWord := BitVec 48

end Sys2Proof
end

