-- ==== Sys2Proof/Syntax.lean ====
section
/-! DEFINITION. The commands of the block (30_encoding.md R61, R63) with their operands as the fields the command uses, and the lines of
the assembler (R66, R68). -/

namespace Sys2Proof

/-- The 31 mnemonics of the opcode map, in its order (30_encoding.md R63). -/
inductive Mnemonic where
  | mclr16 | mclr8 | mld16 | mld8 | msetf16 | msetf8 | mgetf16 | mgetf8
  | setgain | setit | setpers | setint | setsd | setpsm | setpsmen
  | getgain | getit | getpers | getint | getsd | getpsm | getpsmen
  | beginBind | wakeup | shutdown | setht | setlt | setconfig | setpsconfig | getch | getintevt
  deriving DecidableEq, Repr

/-- One command, its operands at the width the command uses (30_encoding.md R61). One constructor per row of the opcode table. -/
inductive Instr where
  | mclr16
  | mclr8
  | mld16 (value mask : Word)
  | mld8 (value mask : Byte)
  | msetf16 (fieldValue fieldMask : Word) (shift : BitVec 4)
  | msetf8 (fieldValue fieldMask : Byte) (shift : BitVec 4)
  | mgetf16 (fieldMask : Word) (shift : BitVec 4)
  | mgetf8 (fieldMask : Byte) (shift : BitVec 4)
  | setgain (v : Word)
  | setit (v : Word)
  | setpers (v : Word)
  | setint (v : Word)
  | setsd (v : Word)
  | setpsm (v : Byte)
  | setpsmen (v : Byte)
  | getgain
  | getit
  | getpers
  | getint
  | getsd
  | getpsm
  | getpsmen
  | beginBind (address : BitVec 7) (wakeUp : Bool)
  | wakeup
  | shutdown
  | setht (threshold : Word)
  | setlt (threshold : Word)
  | setconfig
  | setpsconfig
  | getch (channel : Byte)
  | getintevt
  deriving DecidableEq, Repr

/-- The mnemonic of a command. -/
def Instr.mnemonic : Instr → Mnemonic
  | .mclr16 => .mclr16
  | .mclr8 => .mclr8
  | .mld16 _ _ => .mld16
  | .mld8 _ _ => .mld8
  | .msetf16 _ _ _ => .msetf16
  | .msetf8 _ _ _ => .msetf8
  | .mgetf16 _ _ => .mgetf16
  | .mgetf8 _ _ => .mgetf8
  | .setgain _ => .setgain
  | .setit _ => .setit
  | .setpers _ => .setpers
  | .setint _ => .setint
  | .setsd _ => .setsd
  | .setpsm _ => .setpsm
  | .setpsmen _ => .setpsmen
  | .getgain => .getgain
  | .getit => .getit
  | .getpers => .getpers
  | .getint => .getint
  | .getsd => .getsd
  | .getpsm => .getpsm
  | .getpsmen => .getpsmen
  | .beginBind _ _ => .beginBind
  | .wakeup => .wakeup
  | .shutdown => .shutdown
  | .setht _ => .setht
  | .setlt _ => .setlt
  | .setconfig => .setconfig
  | .setpsconfig => .setpsconfig
  | .getch _ => .getch
  | .getintevt => .getintevt

/-- The operands of a command as the assembler writes them, in the order a, b, sh (30_encoding.md R66). -/
def Instr.operands : Instr → List Nat
  | .mld16 v m => [v.toNat, m.toNat]
  | .mld8 v m => [v.toNat, m.toNat]
  | .msetf16 v m sh => [v.toNat, m.toNat, sh.toNat]
  | .msetf8 v m sh => [v.toNat, m.toNat, sh.toNat]
  | .mgetf16 m sh => [m.toNat, sh.toNat]
  | .mgetf8 m sh => [m.toNat, sh.toNat]
  | .setgain v | .setit v | .setpers v | .setint v | .setsd v | .setht v | .setlt v => [v.toNat]
  | .setpsm v | .setpsmen v | .getch v => [v.toNat]
  | .beginBind address wakeUp => [address.toNat, wakeUp.toNat]
  | .mclr16 | .mclr8 | .getgain | .getit | .getpers | .getint | .getsd | .getpsm | .getpsmen
  | .wakeup | .shutdown | .setconfig | .setpsconfig | .getintevt => []

/-- What may head a line of assembler: a mnemonic (30_encoding.md R66) or one of the three pseudo-instructions (R68). -/
inductive AsmOp where
  | command (m : Mnemonic)
  /-- `BEGIN wakeUp`, the address omitted. -/
  | beginDefault
  /-- `SETCONFIGFULL v`. -/
  | setconfigFull
  /-- `SETPSCONFIGFULL v`. -/
  | setpsconfigFull
  deriving DecidableEq, Repr

/-- A line of assembler: what heads it, and its operands as numbers. -/
structure AsmLine where
  op : AsmOp
  operands : List Nat
  deriving DecidableEq, Repr

/-- The line that writes a command. -/
def Instr.line (i : Instr) : AsmLine := { op := .command i.mnemonic, operands := i.operands }

end Sys2Proof
end

