-- ==== Sys2Proof/WellFormed.lean ====
section
/-! DEFINITION. When a line of assembler is well formed (30_encoding.md R66: "An operand that does not fit its field is an assembler
error"), and so when a command is. A command's operands have the width of their field by type, so every `Instr` passes; the checks bite
on lines, whose operands are numbers. -/

namespace Sys2Proof

/-- Where an operand stands in the command word (30_encoding.md R60). -/
inductive Slot where
  | a | b | sh
  deriving DecidableEq, Repr

/-- The operands of a mnemonic, in the order of the assembler, each with its place and its width (30_encoding.md R61, R66). Log 14. -/
def Mnemonic.slots : Mnemonic → List (Slot × Nat)
  | .mld16 => [(.a, 16), (.b, 16)]
  | .mld8 => [(.a, 8), (.b, 8)]
  | .msetf16 => [(.a, 16), (.b, 16), (.sh, 4)]
  | .msetf8 => [(.a, 8), (.b, 8), (.sh, 4)]
  | .mgetf16 => [(.b, 16), (.sh, 4)]
  | .mgetf8 => [(.b, 8), (.sh, 4)]
  | .setgain | .setit | .setpers | .setint | .setsd | .setht | .setlt => [(.a, 16)]
  | .setpsm | .setpsmen | .getch => [(.a, 8)]
  | .beginBind => [(.a, 7), (.b, 1)]
  | .mclr16 | .mclr8 | .getgain | .getit | .getpers | .getint | .getsd | .getpsm | .getpsmen
  | .wakeup | .shutdown | .setconfig | .setpsconfig | .getintevt => []

/-- The widths of the operands a line takes, the pseudo-instructions included (30_encoding.md R66, R68). -/
def AsmOp.widths : AsmOp → List Nat
  | .command m => m.slots.map Prod.snd
  | .beginDefault => [1]
  | .setconfigFull => [16]
  | .setpsconfigFull => [8]

/-- Why the assembler rejects a line. -/
inductive AsmError where
  /-- The line has more or fewer operands than its command uses. -/
  | operandCount
  /-- An operand does not fit its field. -/
  | operandTooWide
  deriving DecidableEq, Repr

/-- The assembler's two checks of a line. -/
def AsmLine.check (l : AsmLine) : Except AsmError Unit :=
  if l.operands.length ≠ l.op.widths.length then .error .operandCount
  else if (l.operands.zip l.op.widths).all (fun p => decide (p.1 < 2 ^ p.2)) then .ok ()
  else .error .operandTooWide

/-- A line is well formed when the assembler accepts it. -/
def AsmLine.wellFormed (l : AsmLine) : Bool := l.check.isOk

/-- A command is well formed when the line that writes it is. -/
def Instr.wellFormed (i : Instr) : Bool := i.line.wellFormed

end Sys2Proof
end

