-- ==== Sys2Proof/Decode.lean ====
section
/-! DEFINITION. Command words to commands and back (30_encoding.md R60 to R64), and the assembler (R66, R68). -/

namespace Sys2Proof

/-! ### The format C48 -/

/-- A command word from its fields: `{op, rsv, sh, b, a}` (30_encoding.md R60). -/
def c48 (op : Byte) (rsv sh : BitVec 4) (b a : Word) : CmdWord := op ++ rsv ++ sh ++ b ++ a

/-- `op`, bits [47:40] (30_encoding.md R60). -/
def opField (w : CmdWord) : Byte := w.extractLsb' 40 8

/-- `rsv`, bits [39:36], ignored by the block (30_encoding.md R60, R62). -/
def rsvField (w : CmdWord) : BitVec 4 := w.extractLsb' 36 4

/-- `sh`, bits [35:32] (30_encoding.md R60). -/
def shField (w : CmdWord) : BitVec 4 := w.extractLsb' 32 4

/-- `b`, bits [31:16] (30_encoding.md R60). -/
def bField (w : CmdWord) : Word := w.extractLsb' 16 16

/-- `a`, bits [15:0] (30_encoding.md R60). -/
def aField (w : CmdWord) : Word := w.extractLsb' 0 16

/-- Bits [7:0] of a field (30_encoding.md R61). -/
def lowByte (v : Word) : Byte := v.extractLsb' 0 8

/-! ### The opcode map -/

/-- The opcode of a mnemonic (30_encoding.md R63). -/
def Mnemonic.op : Mnemonic → Byte
  | .mclr16 => 0x01
  | .mclr8 => 0x02
  | .mld16 => 0x03
  | .mld8 => 0x04
  | .msetf16 => 0x05
  | .msetf8 => 0x06
  | .mgetf16 => 0x07
  | .mgetf8 => 0x08
  | .setgain => 0x10
  | .setit => 0x11
  | .setpers => 0x12
  | .setint => 0x13
  | .setsd => 0x14
  | .setpsm => 0x15
  | .setpsmen => 0x16
  | .getgain => 0x18
  | .getit => 0x19
  | .getpers => 0x1A
  | .getint => 0x1B
  | .getsd => 0x1C
  | .getpsm => 0x1D
  | .getpsmen => 0x1E
  | .beginBind => 0x20
  | .wakeup => 0x21
  | .shutdown => 0x22
  | .setht => 0x23
  | .setlt => 0x24
  | .setconfig => 0x25
  | .setpsconfig => 0x26
  | .getch => 0x27
  | .getintevt => 0x28

/-- The rows of the opcode map, in its order (30_encoding.md R63). -/
def Mnemonic.all : List Mnemonic :=
  [.mclr16, .mclr8, .mld16, .mld8, .msetf16, .msetf8, .mgetf16, .mgetf8,
   .setgain, .setit, .setpers, .setint, .setsd, .setpsm, .setpsmen,
   .getgain, .getit, .getpers, .getint, .getsd, .getpsm, .getpsmen,
   .beginBind, .wakeup, .shutdown, .setht, .setlt, .setconfig, .setpsconfig, .getch, .getintevt]

/-- The row an opcode selects; none for a reserved opcode (30_encoding.md R62, R64). -/
def Mnemonic.ofOp (op : Byte) : Option Mnemonic := Mnemonic.all.find? (fun m => m.op == op)

/-! ### Decoding -/

/-- Why a command word has no command: its opcode is reserved (30_encoding.md R64). -/
inductive DecodeError where
  | reservedOp (op : Byte)
  deriving DecidableEq, Repr

/-- The operand fields of a command word. -/
structure Fields where
  a : Word
  b : Word
  sh : BitVec 4
  deriving DecidableEq, Repr

/-- The operand fields of a word; `rsv` is not among them (30_encoding.md R62). -/
def fieldsOf (w : CmdWord) : Fields := { a := aField w, b := bField w, sh := shField w }

/-- Operand assembly, row by row (30_encoding.md R61); what a row does not use is dropped (R62). -/
def Mnemonic.instr (m : Mnemonic) (f : Fields) : Instr :=
  match m with
  | .mclr16 => .mclr16
  | .mclr8 => .mclr8
  | .mld16 => .mld16 f.a f.b
  | .mld8 => .mld8 (lowByte f.a) (lowByte f.b)
  | .msetf16 => .msetf16 f.a f.b f.sh
  | .msetf8 => .msetf8 (lowByte f.a) (lowByte f.b) f.sh
  | .mgetf16 => .mgetf16 f.b f.sh
  | .mgetf8 => .mgetf8 (lowByte f.b) f.sh
  | .setgain => .setgain f.a
  | .setit => .setit f.a
  | .setpers => .setpers f.a
  | .setint => .setint f.a
  | .setsd => .setsd f.a
  | .setpsm => .setpsm (lowByte f.a)
  | .setpsmen => .setpsmen (lowByte f.a)
  | .getgain => .getgain
  | .getit => .getit
  | .getpers => .getpers
  | .getint => .getint
  | .getsd => .getsd
  | .getpsm => .getpsm
  | .getpsmen => .getpsmen
  | .beginBind => .beginBind (f.a.extractLsb' 0 7) (f.b.getLsbD 0)
  | .wakeup => .wakeup
  | .shutdown => .shutdown
  | .setht => .setht f.a
  | .setlt => .setlt f.a
  | .setconfig => .setconfig
  | .setpsconfig => .setpsconfig
  | .getch => .getch (lowByte f.a)
  | .getintevt => .getintevt

/-- The command a word stands for, or the reserved opcode that stops it (30_encoding.md R61 to R64). -/
def decode (w : CmdWord) : Except DecodeError Instr :=
  match Mnemonic.ofOp (opField w) with
  | some m => .ok (m.instr (fieldsOf w))
  | none => .error (.reservedOp (opField w))

/-- The command of a row of the opcode table: `w` is the word as one number, its bits from `nbits` up zero. -/
def decodeTableWord (nbits w : Nat) : Option Instr :=
  if w % 2 ^ nbits < 2 ^ 48 then (decode (BitVec.ofNat 48 (w % 2 ^ nbits))).toOption else none

/-! ### Encoding -/

/-- The word of a command: unused fields and bits zero (30_encoding.md R60, R61, R63). -/
def encode (i : Instr) : CmdWord :=
  match i with
  | .mclr16 => c48 0x01 0 0 0 0
  | .mclr8 => c48 0x02 0 0 0 0
  | .mld16 v m => c48 0x03 0 0 m v
  | .mld8 v m => c48 0x04 0 0 (m.setWidth 16) (v.setWidth 16)
  | .msetf16 v m sh => c48 0x05 0 sh m v
  | .msetf8 v m sh => c48 0x06 0 sh (m.setWidth 16) (v.setWidth 16)
  | .mgetf16 m sh => c48 0x07 0 sh m 0
  | .mgetf8 m sh => c48 0x08 0 sh (m.setWidth 16) 0
  | .setgain v => c48 0x10 0 0 0 v
  | .setit v => c48 0x11 0 0 0 v
  | .setpers v => c48 0x12 0 0 0 v
  | .setint v => c48 0x13 0 0 0 v
  | .setsd v => c48 0x14 0 0 0 v
  | .setpsm v => c48 0x15 0 0 0 (v.setWidth 16)
  | .setpsmen v => c48 0x16 0 0 0 (v.setWidth 16)
  | .getgain => c48 0x18 0 0 0 0
  | .getit => c48 0x19 0 0 0 0
  | .getpers => c48 0x1A 0 0 0 0
  | .getint => c48 0x1B 0 0 0 0
  | .getsd => c48 0x1C 0 0 0 0
  | .getpsm => c48 0x1D 0 0 0 0
  | .getpsmen => c48 0x1E 0 0 0 0
  | .beginBind address wakeUp => c48 0x20 0 0 ((BitVec.ofBool wakeUp).setWidth 16) (address.setWidth 16)
  | .wakeup => c48 0x21 0 0 0 0
  | .shutdown => c48 0x22 0 0 0 0
  | .setht v => c48 0x23 0 0 0 v
  | .setlt v => c48 0x24 0 0 0 v
  | .setconfig => c48 0x25 0 0 0 0
  | .setpsconfig => c48 0x26 0 0 0 0
  | .getch ch => c48 0x27 0 0 0 (ch.setWidth 16)
  | .getintevt => c48 0x28 0 0 0 0

/-- The bits of a word that a row reads: its opcode and the operand bits of R61; R62 lets every other bit be ignored. -/
def Mnemonic.usedBits (m : Mnemonic) : CmdWord :=
  match m with
  | .mld16 => c48 0xFF 0 0 0xFFFF 0xFFFF
  | .mld8 => c48 0xFF 0 0 0x00FF 0x00FF
  | .msetf16 => c48 0xFF 0 0xF 0xFFFF 0xFFFF
  | .msetf8 => c48 0xFF 0 0xF 0x00FF 0x00FF
  | .mgetf16 => c48 0xFF 0 0xF 0xFFFF 0
  | .mgetf8 => c48 0xFF 0 0xF 0x00FF 0
  | .setgain | .setit | .setpers | .setint | .setsd | .setht | .setlt => c48 0xFF 0 0 0 0xFFFF
  | .setpsm | .setpsmen | .getch => c48 0xFF 0 0 0 0x00FF
  | .beginBind => c48 0xFF 0 0 0x0001 0x007F
  | .mclr16 | .mclr8 | .getgain | .getit | .getpers | .getint | .getsd | .getpsm | .getpsmen
  | .wakeup | .shutdown | .setconfig | .setpsconfig | .getintevt => c48 0xFF 0 0 0 0

/-! ### The assembler -/

/-- One operand put into its field. -/
def Fields.place (f : Fields) (s : Slot) (n : Nat) : Fields :=
  match s with
  | .a => { f with a := BitVec.ofNat 16 n }
  | .b => { f with b := BitVec.ofNat 16 n }
  | .sh => { f with sh := BitVec.ofNat 4 n }

/-- The fields of a line: its operands in the order a, b, sh, what is not written zero (30_encoding.md R66). -/
def Mnemonic.fields (m : Mnemonic) (operands : List Nat) : Fields :=
  (m.slots.zip operands).foldl (fun f p => f.place p.1.1 p.2) { a := 0, b := 0, sh := 0 }

/-- The word of a mnemonic with its operands (30_encoding.md R66). -/
def Mnemonic.word (m : Mnemonic) (operands : List Nat) : CmdWord :=
  c48 m.op 0 (m.fields operands).sh (m.fields operands).b (m.fields operands).a

/-- The commands a line stands for: itself, or the expansion of its pseudo-instruction (30_encoding.md R68; 0x10 is the default bus
address of 00_scope.md R5). -/
def AsmLine.expand (l : AsmLine) : List (Mnemonic × List Nat) :=
  match l.op with
  | .command m => [(m, l.operands)]
  | .beginDefault => [(.beginBind, 0x10 :: l.operands)]
  | .setconfigFull => [(.mld16, l.operands ++ [0xFFFF]), (.setconfig, [])]
  | .setpsconfigFull => [(.mld8, l.operands ++ [0xFF]), (.setpsconfig, [])]

/-- The words of a line, or the assembler's error (30_encoding.md R66, R68). -/
def assemble (l : AsmLine) : Except AsmError (List CmdWord) :=
  match l.check with
  | .error e => .error e
  | .ok _ => .ok (l.expand.map (fun p => p.1.word p.2))

end Sys2Proof
end

