-- ==== Sys2Proof/Config.lean ====
section
/-! DEFINITION. What an implementation fixes and what the spec leaves open (00_scope.md R6, R8, R11). Nothing here has a value that a
proof could rest on. -/

namespace Sys2Proof

/-- The four power-on values the spec leaves as model arguments (00_scope.md R6; 92_eei_decisions.md D18). -/
structure Config.ResetParams where
  conf : Word
  wh : Word
  wl : Word
  psconf : Word
  deriving DecidableEq, Repr, Inhabited

/-- `RST_CONF`, `RST_WH`, `RST_WL`, `RST_PSCONF` of the machine at hand: no rule assumes anything of them (10_state.md R36). Log 5. -/
opaque Config.rst : Config.ResetParams

/-- The spec's `env.junk`, the source of every `UNSPEC` value (00_scope.md R8, R11): the value of the n-th draw. Log 4. -/
opaque Config.junk : Nat → Word

end Sys2Proof
end

