-- ==== Sys2Proof/Machine/State.lean ====
section
/-! DEFINITION. The state of the block (10_state.md R20 to R36), what its ports show (30_encoding.md R65, R67; 00_scope.md R11), and the
reset state (10_state.md R36; 70_reset_and_hazards.md R160). Plain data. -/

namespace Sys2Proof.Machine

/-- A Masked Register Value of width `w`: a value, and a mask that marks its specified bits (10_state.md R20, R21). -/
structure Mrv (w : Nat) where
  value : BitVec w
  mask : BitVec w
  deriving DecidableEq, Repr

/-- The kind of a transaction event (20_memory.md R47). -/
inductive XactKind where
  | read
  | write
  /-- `RMW`: a partial write. -/
  | rmw
  deriving DecidableEq, Repr

/-- A transaction event (20_memory.md R47). -/
structure Event where
  kind : XactKind
  dev : BitVec 7
  reg : Byte
  wdata : Word
  wmask : Word
  deriving DecidableEq, Repr

/-- The environment of one command (00_scope.md R11): the transport's verdict, and the sensor's three words. `answers` says whether the
transport answers the command's transaction at all (70_reset_and_hazards.md R170). The spec's `env.junk` is `Config.junk` (log 4). -/
structure Env where
  terr : Byte
  answers : Bool
  white : Word
  als : Word
  intstat : Word
  deriving DecidableEq, Repr

/-- The result outputs of one command (30_encoding.md R65, R67): `res_err`, `res_data`, `res_present`, `res_fault`. -/
structure Results where
  err : Byte
  data : Word
  present : Bool
  fault : BitVec 2
  deriving DecidableEq, Repr

/-- What the ports show the block at one step (30_encoding.md R65; 70_reset_and_hazards.md R160). -/
inductive Input where
  /-- `cmd_valid` and `rst` low. -/
  | idle
  /-- `rst` high. -/
  | rst
  /-- `cmd_valid` high: a command word, with the environment its command meets. -/
  | command (word : CmdWord) (env : Env)
  deriving DecidableEq, Repr

/-- The state of the block, its sampled input pins, its result port, and what a model records of it. -/
structure State where
  /-- `ACC16` (10_state.md R20). -/
  acc16 : Mrv 16
  /-- `ACC8` (10_state.md R21). -/
  acc8 : Mrv 8
  /-- `BOUND` (10_state.md R31). -/
  bound : Bool
  /-- `ADDR` (10_state.md R32); it shows no value while Unbound (log 6). -/
  addr : BitVec 7
  /-- `CONF`, register 0x00 (10_state.md R26). -/
  conf : Word
  /-- `WH`, register 0x01 (10_state.md R27). -/
  wh : Word
  /-- `WL`, register 0x02 (10_state.md R28). -/
  wl : Word
  /-- `PSCONF`, register 0x03 (10_state.md R29). -/
  psconf : Word
  /-- The input pins as sampled for the present command (00_scope.md R11). -/
  env : Env
  /-- A transaction is unanswered: `cmd_ready` is low (30_encoding.md R65; 70_reset_and_hazards.md R170). -/
  waiting : Bool
  /-- The result port: the results while `res_valid` is high, none else (30_encoding.md R65). No latch: one step (10_state.md R34). -/
  res : Option Results
  /-- What the ports will show at the coming steps, soonest first; nothing is presented where it ends (10_state.md R33). Log 2. -/
  inputs : List Input
  /-- The event history, oldest first (20_memory.md R47). -/
  events : List Event
  /-- The model's own: how many free values were drawn. Log 4. -/
  draws : Nat
  deriving DecidableEq, Repr

/-- Why the block refuses a command (60_exceptions.md R143). -/
inductive Fault where
  /-- Raised by the decoding of a word whose opcode is reserved (60_exceptions.md R144). Safe: the spec names this fault. -/
  | illegalCommand (op : Byte)
  /-- Raised by a driver command other than BEGIN while Unbound (60_exceptions.md R145). Safe: the spec names this fault. -/
  | notBound (op : Byte)
  deriving DecidableEq, Repr

/-- Why the model has no answer. No command ever ends in one; the raw register accesses of `Machine/Ops.lean` do. -/
inductive Refusal where
  /-- An instruction without a meaning. Raised by no arm of this model. Safe. -/
  | notModelled (mnemonic : String)
  /-- Raised by a raw access to an address that holds no register, 0x07 and above (20_memory.md R41). Safe. -/
  | noRegister (address : Byte)
  /-- Raised by a raw write to one of the three read-only registers (20_memory.md R43). Safe. -/
  | readOnlyRegister (address : Byte)
  deriving DecidableEq, Repr

/-- The input pins while nothing has been sampled yet. DESIGN CHOICE, unsafe; log 7. -/
def Env.quiet : Env := { terr := 0, answers := true, white := 0, als := 0, intstat := 0 }

/-- The block after `rst` with the power-on values `p` (10_state.md R36; 70_reset_and_hazards.md R160, R161). `ADDR` has no value:
the free value of draw `n` stands there. Nothing is presented and nothing has been recorded. -/
def State.resetWith (p : Config.ResetParams) (n : Nat) : State :=
  { acc16 := { value := 0, mask := 0 }
    acc8 := { value := 0, mask := 0 }
    bound := false
    addr := (Config.junk n).setWidth 7
    conf := p.conf
    wh := p.wh
    wl := p.wl
    psconf := p.psconf
    env := Env.quiet
    waiting := false
    res := none
    inputs := []
    events := []
    draws := n + 1 }

/-- The machine right after reset (10_state.md R36). -/
def State.reset : State := State.resetWith Config.rst 0

end Sys2Proof.Machine
end

