-- ==== Sys2Proof/Machine/Operands.lean ====
section
/-! DEFINITION. The operands built into the block: field descriptors (10_state.md R25), register addresses (20_memory.md R41), channel
selectors, and the codes of events, faults and results (00_scope.md R5, R6). -/

namespace Sys2Proof.Machine

/-! ### Field descriptors -/

/-- A field descriptor: `(fieldMask, shift)` (10_state.md R25). -/
structure Descriptor (w : Nat) where
  mask : BitVec w
  shift : BitVec 4
  deriving DecidableEq, Repr

/-- Field 0, GAIN, CONF[12:11] (10_state.md R25). -/
def fieldGain : Descriptor 16 := { mask := 0x1800, shift := 11 }

/-- Field 1, IT, CONF[9:6] (10_state.md R25). -/
def fieldIt : Descriptor 16 := { mask := 0x03C0, shift := 6 }

/-- Field 2, PERS, CONF[5:4] (10_state.md R25). -/
def fieldPers : Descriptor 16 := { mask := 0x0030, shift := 4 }

/-- Field 3, INT_EN, CONF[1] (10_state.md R25). -/
def fieldIntEn : Descriptor 16 := { mask := 0x0002, shift := 1 }

/-- Field 4, SD, CONF[0] (10_state.md R25). -/
def fieldSd : Descriptor 16 := { mask := 0x0001, shift := 0 }

/-- Field 5, PSM, PSCONF[2:1] (10_state.md R25). -/
def fieldPsm : Descriptor 8 := { mask := 0x06, shift := 1 }

/-- Field 6, PSM_EN, PSCONF[0] (10_state.md R25). -/
def fieldPsmEn : Descriptor 8 := { mask := 0x01, shift := 0 }

/-! ### Registers -/

/-- The four registers that are state of the block (20_memory.md R41). -/
inductive StoredReg where
  | conf | wh | wl | psconf
  deriving DecidableEq, Repr

/-- The three registers the sensor drives (10_state.md R30; 20_memory.md R41). -/
inductive InputReg where
  | white | als | intstat
  deriving DecidableEq, Repr

/-- The register address of a stored register (20_memory.md R41). -/
def StoredReg.address : StoredReg → Byte
  | .conf => 0x00
  | .wh => 0x01
  | .wl => 0x02
  | .psconf => 0x03

/-- The register address of an input-backed register (20_memory.md R41). -/
def InputReg.address : InputReg → Byte
  | .white => 0x04
  | .als => 0x05
  | .intstat => 0x06

/-- The stored register at an address. -/
def StoredReg.at? (a : Byte) : Option StoredReg :=
  [StoredReg.conf, .wh, .wl, .psconf].find? (fun r => r.address == a)

/-- The input-backed register at an address. -/
def InputReg.at? (a : Byte) : Option InputReg :=
  [InputReg.white, .als, .intstat].find? (fun r => r.address == a)

/-- `CH_WHITE` (00_scope.md R6; 92_eei_decisions.md D17). Log 16. -/
def chWhite : Byte := 0x04

/-- `CH_ALS` (00_scope.md R6; 92_eei_decisions.md D17). Log 16. -/
def chAls : Byte := 0x05

/-- The register a channel selector names, none for an invalid selector (41_driver.md R127). -/
def channel? (ch : Byte) : Option InputReg :=
  if ch = chWhite then some .white else if ch = chAls then some .als else none

/-! ### Codes -/

/-- `ERR_CHANNEL` (60_exceptions.md R140). -/
def errChannel : Byte := 8

/-- `NOT_PRESENT` on `res_data` (30_encoding.md R67; 40_composer.md R83). -/
def notPresent : Word := 0x00FF

/-- The code of an event kind on `xp_kind` (20_memory.md R47). -/
def XactKind.code : XactKind → BitVec 2
  | .read => 0
  | .write => 1
  | .rmw => 2

/-- The code of a fault on `res_fault` (60_exceptions.md R143). -/
def Fault.code : Fault → BitVec 2
  | .illegalCommand _ => 1
  | .notBound _ => 2

end Sys2Proof.Machine
end

