-- ==== Sys2Proof/Machine/Flags.lean ====
section
/-! DEFINITION. The computations on Masked Register Values (40_composer.md R81 to R83) and the partial-write mux (20_memory.md R44). A
mask bit is the block's only flag: "bit i of the value has been specified" (10_state.md R24). -/

namespace Sys2Proof.Machine

/-- `Fresh_W` (40_composer.md R81). -/
def freshMrv (w : Nat) : Mrv w := { value := 0, mask := 0 }

/-- `ins` of SetField: the shift is formed at 32 bits, then masked, then cut to the width (40_composer.md R82). -/
def fieldInsert {w : Nat} (fv fm : BitVec w) (sh : BitVec 4) : BitVec w :=
  ((fv.setWidth 32 <<< sh.toNat) &&& fm.setWidth 32).setWidth w

/-- `SetField_W` (40_composer.md R82). -/
def setField {w : Nat} (r : Mrv w) (fv fm : BitVec w) (sh : BitVec 4) : Mrv w :=
  { value := (r.value &&& ~~~fm) ||| fieldInsert fv fm sh
    mask := r.mask ||| fm }

/-- What a get-field answers: is the field specified, and its data (40_composer.md R83). -/
structure FieldResult where
  present : Bool
  data : Word
  deriving DecidableEq, Repr

/-- `GetField_W`: the presence test looks at the mask only; an absent field reads as the sentinel 255 (40_composer.md R83). -/
def getField {w : Nat} (r : Mrv w) (fm : BitVec w) (sh : BitVec 4) : FieldResult :=
  if r.mask &&& fm ≠ fm then { present := false, data := notPresent }
  else { present := true, data := ((r.value &&& fm) >>> sh.toNat).setWidth 16 }

/-- The partial-write mux: where the mask bit is 1 the new bit is the value's, else the old one (20_memory.md R44). -/
def mux (old v m : Word) : Word := (old &&& ~~~m) ||| (v &&& m)

end Sys2Proof.Machine
end

