-- ==== Sys2Proof/Machine/Ops.lean ====
section
/-! DEFINITION. The named operations over registers, the transport port, the result port and the command port, from which every
meaning is built. -/

namespace Sys2Proof.Machine

/-- The outcome of a command or a step. -/
abbrev StepOutcome := Host.Outcome State Fault Refusal

/-! ### Registers -/

/-- The value of a stored register (20_memory.md R42). -/
def State.stored (s : State) (r : StoredReg) : Word :=
  match r with
  | .conf => s.conf
  | .wh => s.wh
  | .wl => s.wl
  | .psconf => s.psconf

/-- A stored register replaced. -/
def State.setStored (s : State) (r : StoredReg) (v : Word) : State :=
  match r with
  | .conf => { s with conf := v }
  | .wh => { s with wh := v }
  | .wl => { s with wl := v }
  | .psconf => { s with psconf := v }

/-- The value of an input-backed register: the pin of this moment (10_state.md R30; 20_memory.md R42). -/
def State.sampled (s : State) (r : InputReg) : Word :=
  match r with
  | .white => s.env.white
  | .als => s.env.als
  | .intstat => s.env.intstat

/-- `MemWriteMasked` on a stored register (20_memory.md R44). -/
def State.mergeStored (s : State) (r : StoredReg) (v m : Word) : State := s.setStored r (mux (s.stored r) v m)

/-- `MemRead(a, 16)` at a raw address; an address without a register is refused (20_memory.md R41, R42). -/
def State.memRead (s : State) (a : Byte) : Except Refusal Word :=
  match StoredReg.at? a, InputReg.at? a with
  | some r, _ => .ok (s.stored r)
  | none, some r => .ok (s.sampled r)
  | none, none => .error (.noRegister a)

/-- `MemWriteMasked(a, v, m)` at a raw address; a read-only register takes no write (20_memory.md R41, R43, R44). -/
def State.memWriteMasked (s : State) (a : Byte) (v m : Word) : Except Refusal State :=
  match StoredReg.at? a, InputReg.at? a with
  | some r, _ => .ok (s.mergeStored r v m)
  | none, some _ => .error (.readOnlyRegister a)
  | none, none => .error (.noRegister a)

/-- `MemWrite(a, 16, v)`: the write with a full mask (20_memory.md R43). -/
def State.memWrite (s : State) (a : Byte) (v : Word) : Except Refusal State := s.memWriteMasked a v 0xFFFF

/-- `ACC16` replaced (10_state.md R20). -/
def State.setAcc16 (s : State) (r : Mrv 16) : State := { s with acc16 := r }

/-- `ACC8` replaced (10_state.md R21). -/
def State.setAcc8 (s : State) (r : Mrv 8) : State := { s with acc8 := r }

/-- `ADDR` takes an address and the block is Bound (10_state.md R31, R32). -/
def State.bind (s : State) (address : BitVec 7) : State := { s with bound := true, addr := address }

/-! ### Free values -/

/-- `UNSPEC_16`: the value of the next draw (00_scope.md R8). Log 4. -/
def State.unspec (s : State) : Word := Config.junk s.draws

/-- One value has been drawn, so the next is another (00_scope.md R8: "draws it afresh each time"). -/
def State.drawn (s : State) : State := { s with draws := s.draws + 1 }

/-- A stored register holds `UNSPEC_16` (20_memory.md R49). -/
def State.scramble (s : State) (r : StoredReg) : State := (s.setStored r s.unspec).drawn

/-! ### The result port and faults -/

/-- The result outputs of a command that completes (30_encoding.md R67). -/
def State.finish (s : State) (err : Byte) (data : Word) (present : Bool) : State :=
  { s with res := some { err := err, data := data, present := present, fault := 0 } }

/-- The results of a command that returns no data and cannot fail (40_composer.md R80). -/
def State.done (s : State) : State := s.finish 0 0x0000 false

/-- A fault reported on `res_fault`: nothing else changes, and the other results are `UNSPEC` (60_exceptions.md R143). Log 3, log 4. -/
def State.reportFault (s : State) (f : Fault) : State :=
  { s with
    res := some { err := (Config.junk s.draws).setWidth 8
                  data := Config.junk (s.draws + 1)
                  present := (Config.junk (s.draws + 2)).getLsbD 0
                  fault := f.code }
    draws := s.draws + 3 }

/-- The end of an accepted command: a fault is reported and the block is ready for the next command (60_exceptions.md R143, R148). Log 3. -/
def deliver (s : State) (o : StepOutcome) : StepOutcome :=
  match o with
  | .next t => .next t
  | .fault f => .next (s.reportFault f)
  | .refused r => .refused r

/-- The Bound check: `NotBound` before anything else of the command (41_driver.md R119; 60_exceptions.md R145, R147). -/
def whenBound (op : Byte) (s : State) (o : StepOutcome) : StepOutcome :=
  if s.bound then o else .fault (.notBound op)

/-! ### The transport port -/

/-- One transaction event, put at the end of the history (20_memory.md R47). -/
def State.emit (s : State) (e : Event) : State := { s with events := s.events ++ [e] }

/-- The transport does not answer: `cmd_ready` stays low and no result comes (70_reset_and_hazards.md R170). Log 8. -/
def State.await (s : State) : State := { s with waiting := true, res := none }

/-- The event kind of a commit: `WRITE` for a full mask, else `RMW` (20_memory.md R47; 41_driver.md R118). -/
def commitKind (m : Word) : XactKind := if m = 0xFFFF then .write else .rmw

/-- The event of a commit (20_memory.md R47). -/
def commitEvent (dev : BitVec 7) (r : StoredReg) (v m : Word) : Event :=
  { kind := commitKind m, dev := dev, reg := r.address, wdata := v, wmask := m }

/-- The event of a read (20_memory.md R47). -/
def readEvent (dev : BitVec 7) (r : InputReg) : Event :=
  { kind := .read, dev := dev, reg := r.address, wdata := 0x0000, wmask := 0x0000 }

/-- What a verdict makes of the target register of a commit (20_memory.md R49). -/
def State.settle (s : State) (r : StoredReg) (v m : Word) (terr : Byte) : State :=
  if terr = 0 then s.mergeStored r v m else s.scramble r

/-- `Commit(reg, v, m)` and the end of its command (41_driver.md R118): one event that carries `dev`, one verdict, handed back unchanged
on `res_err`; `after` is what the command does besides, whatever the verdict. All writes land together (00_scope.md R8). -/
def commit (dev : BitVec 7) (r : StoredReg) (v m : Word) (after : State → State) (s : State) : StepOutcome :=
  if s.env.answers then
    .next ((after ((s.emit (commitEvent dev r v m)).settle r v m s.env.terr)).finish s.env.terr 0x0000 false)
  else .next (s.emit (commitEvent dev r v m)).await

/-- A read of an input-backed register and the end of its command (20_memory.md R47, R50; 41_driver.md R127, R128). -/
def readInput (r : InputReg) (s : State) : StepOutcome :=
  if s.env.answers then
    if s.env.terr = 0 then .next ((s.emit (readEvent s.addr r)).finish 0 (s.sampled r) false)
    else .next ((s.emit (readEvent s.addr r)).drawn.finish s.env.terr s.unspec false)
  else .next (s.emit (readEvent s.addr r)).await

/-! ### The command port -/

/-- What the ports show at this step: the head of the stream, nothing where it has ended (30_encoding.md R65). -/
def State.offered (s : State) : Input := s.inputs.headD .idle

/-- The step's share of the stream is over, and so is `res_valid` of the command before (30_encoding.md R65). -/
def State.consume (s : State) : State := { s with inputs := s.inputs.tail, res := none }

/-- The input pins sampled for a command (00_scope.md R11). -/
def State.sample (s : State) (e : Env) : State := { s with env := e }

/-- `rst` high: every state element takes its reset value (70_reset_and_hazards.md R160). The pins, the stream and the records are
no state elements of the block and stay. Log 10. -/
def State.resetBlock (s : State) : State :=
  { State.resetWith Config.rst s.draws with env := s.env, inputs := s.inputs, events := s.events }

/-- What a step does with its ports: pass without a command, or run an accepted word on a state. -/
inductive PortAction where
  | pass (t : State)
  | run (w : CmdWord) (t : State)
  deriving DecidableEq, Repr

/-- `rst` comes first; a command is accepted only while `cmd_ready` is high (30_encoding.md R65; 70_reset_and_hazards.md R160, R170). -/
def portAction (s : State) : PortAction :=
  match s.offered with
  | .rst => .pass s.consume.resetBlock
  | .idle => .pass s.consume
  | .command w e => if s.waiting then .pass s.consume else .run w (s.consume.sample e)

/-- The command of a word, or `IllegalCommand` (60_exceptions.md R144). -/
def decodeCommand (w : CmdWord) : Except Fault Instr :=
  match decode w with
  | .ok i => .ok i
  | .error (.reservedOp op) => .error (.illegalCommand op)

/-- A word presented at the next step, before whatever else is to come, to a block that is ready for it. -/
def State.present (s : State) (w : CmdWord) (e : Env) : State :=
  { s with waiting := false, inputs := .command w e :: s.inputs }

end Sys2Proof.Machine
end

