-- ==== Sys2Proof/Machine/Composer.lean ====
section
/-! DEFINITION. The meanings of the 22 composer commands (40_composer.md R80 to R107). -/

namespace Sys2Proof.Machine

/-! ### Shared forms -/

/-- Set-field on `ACC16` (40_composer.md R82, R90). -/
def setWide (fv fm : Word) (sh : BitVec 4) (s : State) : StepOutcome :=
  .next (s.setAcc16 (setField s.acc16 fv fm sh)).done

/-- Set-field on `ACC8` (40_composer.md R82, R91). -/
def setNarrow (fv fm : Byte) (sh : BitVec 4) (s : State) : StepOutcome :=
  .next (s.setAcc8 (setField s.acc8 fv fm sh)).done

/-- Get-field on `ACC16`: no state changes, `res_err` is 0 (40_composer.md R83, R92). -/
def getWide (fm : Word) (sh : BitVec 4) (s : State) : StepOutcome :=
  .next (s.finish 0 (getField s.acc16 fm sh).data (getField s.acc16 fm sh).present)

/-- Get-field on `ACC8` (40_composer.md R83, R93). -/
def getNarrow (fm : Byte) (sh : BitVec 4) (s : State) : StepOutcome :=
  .next (s.finish 0 (getField s.acc8 fm sh).data (getField s.acc8 fm sh).present)

/-! ### Clear and load -/

/-- MCLR16 (40_composer.md R86). -/
def execMclr16 (s : State) : StepOutcome := .next (s.setAcc16 (freshMrv 16)).done

/-- MCLR8 (40_composer.md R87). -/
def execMclr8 (s : State) : StepOutcome := .next (s.setAcc8 (freshMrv 8)).done

/-- MLD16 (40_composer.md R88). -/
def execMld16 (value mask : Word) (s : State) : StepOutcome := .next (s.setAcc16 { value := value, mask := mask }).done

/-- MLD8 (40_composer.md R89). -/
def execMld8 (value mask : Byte) (s : State) : StepOutcome := .next (s.setAcc8 { value := value, mask := mask }).done

/-! ### Generic set-field and get-field -/

/-- MSETF16 (40_composer.md R90). -/
def execMsetf16 (fv fm : Word) (sh : BitVec 4) (s : State) : StepOutcome := setWide fv fm sh s

/-- MSETF8 (40_composer.md R91). -/
def execMsetf8 (fv fm : Byte) (sh : BitVec 4) (s : State) : StepOutcome := setNarrow fv fm sh s

/-- MGETF16 (40_composer.md R92). -/
def execMgetf16 (fm : Word) (sh : BitVec 4) (s : State) : StepOutcome := getWide fm sh s

/-- MGETF8 (40_composer.md R93). -/
def execMgetf8 (fm : Byte) (sh : BitVec 4) (s : State) : StepOutcome := getNarrow fm sh s

/-! ### Typed set-field -/

/-- SETGAIN (40_composer.md R94). -/
def execSetgain (v : Word) (s : State) : StepOutcome := setWide v fieldGain.mask fieldGain.shift s

/-- SETIT (40_composer.md R95). -/
def execSetit (v : Word) (s : State) : StepOutcome := setWide v fieldIt.mask fieldIt.shift s

/-- SETPERS (40_composer.md R96). -/
def execSetpers (v : Word) (s : State) : StepOutcome := setWide v fieldPers.mask fieldPers.shift s

/-- SETINT (40_composer.md R97). -/
def execSetint (v : Word) (s : State) : StepOutcome := setWide v fieldIntEn.mask fieldIntEn.shift s

/-- SETSD (40_composer.md R98). -/
def execSetsd (v : Word) (s : State) : StepOutcome := setWide v fieldSd.mask fieldSd.shift s

/-- SETPSM (40_composer.md R99). -/
def execSetpsm (v : Byte) (s : State) : StepOutcome := setNarrow v fieldPsm.mask fieldPsm.shift s

/-- SETPSMEN (40_composer.md R100). -/
def execSetpsmen (v : Byte) (s : State) : StepOutcome := setNarrow v fieldPsmEn.mask fieldPsmEn.shift s

/-! ### Typed get-field -/

/-- GETGAIN (40_composer.md R101). -/
def execGetgain (s : State) : StepOutcome := getWide fieldGain.mask fieldGain.shift s

/-- GETIT (40_composer.md R102). -/
def execGetit (s : State) : StepOutcome := getWide fieldIt.mask fieldIt.shift s

/-- GETPERS (40_composer.md R103). -/
def execGetpers (s : State) : StepOutcome := getWide fieldPers.mask fieldPers.shift s

/-- GETINT (40_composer.md R104). -/
def execGetint (s : State) : StepOutcome := getWide fieldIntEn.mask fieldIntEn.shift s

/-- GETSD: no extra mask after the presence test (40_composer.md R105; 90_conflicts.md C8). -/
def execGetsd (s : State) : StepOutcome := getWide fieldSd.mask fieldSd.shift s

/-- GETPSM (40_composer.md R106). -/
def execGetpsm (s : State) : StepOutcome := getNarrow fieldPsm.mask fieldPsm.shift s

/-- GETPSMEN (40_composer.md R107). -/
def execGetpsmen (s : State) : StepOutcome := getNarrow fieldPsmEn.mask fieldPsmEn.shift s

end Sys2Proof.Machine
end

