-- ==== Sys2Proof/Machine/Driver.lean ====
section
/-! DEFINITION. The meanings of the nine driver commands (41_driver.md R118 to R128). -/

namespace Sys2Proof.Machine

/-- BEGIN: binding, and the wake-up write if its flag is set; the write's event carries the new address (41_driver.md R120;
90_conflicts.md C11). -/
def execBegin (address : BitVec 7) (wakeUp : Bool) (s : State) : StepOutcome :=
  if wakeUp then commit address .conf 0x0000 0x0001 (fun t => t.bind address) s
  else .next (s.bind address).done

/-- WAKEUP: CONF[0] becomes 0 (41_driver.md R121). -/
def execWakeup (s : State) : StepOutcome :=
  whenBound (Mnemonic.op .wakeup) s (commit s.addr .conf 0x0000 0x0001 id s)

/-- SHUTDOWN: CONF[0] becomes 1 (41_driver.md R122). -/
def execShutdown (s : State) : StepOutcome :=
  whenBound (Mnemonic.op .shutdown) s (commit s.addr .conf 0x0001 0x0001 id s)

/-- SETHT: WH, with a full mask (41_driver.md R123). -/
def execSetht (threshold : Word) (s : State) : StepOutcome :=
  whenBound (Mnemonic.op .setht) s (commit s.addr .wh threshold 0xFFFF id s)

/-- SETLT: WL, with a full mask (41_driver.md R124). -/
def execSetlt (threshold : Word) (s : State) : StepOutcome :=
  whenBound (Mnemonic.op .setlt) s (commit s.addr .wl threshold 0xFFFF id s)

/-- SETCONFIG: `ACC16` into CONF; `ACC16` is consumed whatever the verdict (41_driver.md R125). -/
def execSetconfig (s : State) : StepOutcome :=
  whenBound (Mnemonic.op .setconfig) s
    (commit s.addr .conf s.acc16.value s.acc16.mask (fun t => t.setAcc16 (freshMrv 16)) s)

/-- SETPSCONFIG: `ACC8`, widened with zeros, into PSCONF; `ACC8` is consumed whatever the verdict (41_driver.md R126; 20_memory.md R45). -/
def execSetpsconfig (s : State) : StepOutcome :=
  whenBound (Mnemonic.op .setpsconfig) s
    (commit s.addr .psconf (s.acc8.value.setWidth 16) (s.acc8.mask.setWidth 16) (fun t => t.setAcc8 (freshMrv 8)) s)

/-- GETCH: an invalid selector is code 8, no transaction, data `UNSPEC_16` (41_driver.md R127). -/
def execGetch (channel : Byte) (s : State) : StepOutcome :=
  whenBound (Mnemonic.op .getch) s
    (match channel? channel with
     | some r => readInput r s
     | none => .next (s.drawn.finish errChannel s.unspec false))

/-- GETINTEVT (41_driver.md R128). -/
def execGetintevt (s : State) : StepOutcome :=
  whenBound (Mnemonic.op .getintevt) s (readInput .intstat s)

end Sys2Proof.Machine
end

