-- ==== Sys2Proof/Machine/Dispatch.lean ====
section
/-! DEFINITION. The meaning of each command: one arm per constructor, one call each. -/

namespace Sys2Proof.Machine

def exec (i : Instr) (s : State) : Host.Outcome State Fault Refusal :=
  match i with
  | .mclr16 => Sys2Proof.Machine.execMclr16 s
  | .mclr8 => Sys2Proof.Machine.execMclr8 s
  | .mld16 v m => Sys2Proof.Machine.execMld16 v m s
  | .mld8 v m => Sys2Proof.Machine.execMld8 v m s
  | .msetf16 v m sh => Sys2Proof.Machine.execMsetf16 v m sh s
  | .msetf8 v m sh => Sys2Proof.Machine.execMsetf8 v m sh s
  | .mgetf16 m sh => Sys2Proof.Machine.execMgetf16 m sh s
  | .mgetf8 m sh => Sys2Proof.Machine.execMgetf8 m sh s
  | .setgain v => Sys2Proof.Machine.execSetgain v s
  | .setit v => Sys2Proof.Machine.execSetit v s
  | .setpers v => Sys2Proof.Machine.execSetpers v s
  | .setint v => Sys2Proof.Machine.execSetint v s
  | .setsd v => Sys2Proof.Machine.execSetsd v s
  | .setpsm v => Sys2Proof.Machine.execSetpsm v s
  | .setpsmen v => Sys2Proof.Machine.execSetpsmen v s
  | .getgain => Sys2Proof.Machine.execGetgain s
  | .getit => Sys2Proof.Machine.execGetit s
  | .getpers => Sys2Proof.Machine.execGetpers s
  | .getint => Sys2Proof.Machine.execGetint s
  | .getsd => Sys2Proof.Machine.execGetsd s
  | .getpsm => Sys2Proof.Machine.execGetpsm s
  | .getpsmen => Sys2Proof.Machine.execGetpsmen s
  | .beginBind address wakeUp => Sys2Proof.Machine.execBegin address wakeUp s
  | .wakeup => Sys2Proof.Machine.execWakeup s
  | .shutdown => Sys2Proof.Machine.execShutdown s
  | .setht v => Sys2Proof.Machine.execSetht v s
  | .setlt v => Sys2Proof.Machine.execSetlt v s
  | .setconfig => Sys2Proof.Machine.execSetconfig s
  | .setpsconfig => Sys2Proof.Machine.execSetpsconfig s
  | .getch channel => Sys2Proof.Machine.execGetch channel s
  | .getintevt => Sys2Proof.Machine.execGetintevt s

end Sys2Proof.Machine
end

