-- ==== Sys2Proof/Machine/Step.lean ====
section
/-! DEFINITION. One step of the machine: what the ports show is taken, and an accepted command is run whole (00_scope.md R9). -/

namespace Sys2Proof.Machine

/-- One step. A fault of the command is delivered on the result port and the block goes on (60_exceptions.md R143). Log 3. -/
def step (s : State) : Host.Outcome State Fault Refusal :=
  match portAction s with
  | .pass t => .next t
  | .run w t =>
    match decodeCommand w with
    | .ok i => deliver t (exec i t)
    | .error f => deliver t (.fault f)

/-- `s` with the word of a table row on the command port at the next step: bits from `nbits` up are zero. The environment it meets is
the one whose pins the state holds. Log 19. -/
def State.withFetchWord (s : State) (nbits w : Nat) : State :=
  s.present (BitVec.ofNat 48 (w % 2 ^ nbits)) s.env

end Sys2Proof.Machine
end

