-- ==== Sys2Proof/Machine/Outputs.lean ====
section
/-! DEFINITION. What the block exports, as functions of its state (10_state.md R35; 30_encoding.md R65). -/

namespace Sys2Proof.Machine

/-- `conf_o`. -/
def State.confOut (s : State) : Word := s.conf

/-- `wh_o`. -/
def State.whOut (s : State) : Word := s.wh

/-- `wl_o`. -/
def State.wlOut (s : State) : Word := s.wl

/-- `psconf_o`. -/
def State.psconfOut (s : State) : Word := s.psconf

/-- `gain_o`, CONF[12:11]. -/
def State.gainOut (s : State) : BitVec 2 := s.conf.extractLsb' 11 2

/-- `it_o`, CONF[9:6]. -/
def State.itOut (s : State) : BitVec 4 := s.conf.extractLsb' 6 4

/-- `pers_o`, CONF[5:4]. -/
def State.persOut (s : State) : BitVec 2 := s.conf.extractLsb' 4 2

/-- `int_en_o`, CONF[1]. -/
def State.intEnOut (s : State) : Bool := s.conf.getLsbD 1

/-- `sd_o`, CONF[0]. -/
def State.sdOut (s : State) : Bool := s.conf.getLsbD 0

/-- `psm_o`, PSCONF[2:1]. -/
def State.psmOut (s : State) : BitVec 2 := s.psconf.extractLsb' 1 2

/-- `psm_en_o`, PSCONF[0]. -/
def State.psmEnOut (s : State) : Bool := s.psconf.getLsbD 0

/-- `bound_o`. -/
def State.boundOut (s : State) : Bool := s.bound

/-- `dev_addr_o`: no value before the first BEGIN (10_state.md R36). -/
def State.devAddrOut (s : State) : Option (BitVec 7) := if s.bound then some s.addr else none

/-- `cmd_ready` (30_encoding.md R65; 70_reset_and_hazards.md R161, R170). -/
def State.cmdReady (s : State) : Bool := !s.waiting

/-- `res_valid` (30_encoding.md R65). -/
def State.resValid (s : State) : Bool := s.res.isSome

/-- The low-threshold event, bit 15 of the interrupt-status word (10_state.md R30; 41_driver.md R128). -/
def intThLow (v : Word) : Bool := v.getLsbD 15

/-- The high-threshold event, bit 14 of the interrupt-status word (10_state.md R30; 41_driver.md R128). -/
def intThHigh (v : Word) : Bool := v.getLsbD 14

end Sys2Proof.Machine
end

