-- ==== Sys2Proof/Safety.lean ====
section
/-! DEFINITION. The terms claims use: the command families, what a good run is, the machine's invariant, and what the command interface
shows. -/

namespace Sys2Proof

/-- The 22 composer commands (40_composer.md R80). -/
def Instr.isComposer : Instr → Bool
  | .mclr16 | .mclr8 | .mld16 _ _ | .mld8 _ _ | .msetf16 _ _ _ | .msetf8 _ _ _ => true
  | .setgain _ | .setit _ | .setpers _ | .setint _ | .setsd _ | .setpsm _ | .setpsmen _ => true
  | .mgetf16 _ _ | .mgetf8 _ _ | .getgain | .getit | .getpers | .getint | .getsd | .getpsm | .getpsmen => true
  | .beginBind _ _ | .wakeup | .shutdown | .setht _ | .setlt _ | .setconfig | .setpsconfig | .getch _ | .getintevt => false

/-- The nine get-field commands (40_composer.md R83). -/
def Instr.isGet : Instr → Bool
  | .mgetf16 _ _ | .mgetf8 _ _ | .getgain | .getit | .getpers | .getint | .getsd | .getpsm | .getpsmen => true
  | .mclr16 | .mclr8 | .mld16 _ _ | .mld8 _ _ | .msetf16 _ _ _ | .msetf8 _ _ _ => false
  | .setgain _ | .setit _ | .setpers _ | .setint _ | .setsd _ | .setpsm _ | .setpsmen _ => false
  | .beginBind _ _ | .wakeup | .shutdown | .setht _ | .setlt _ | .setconfig | .setpsconfig | .getch _ | .getintevt => false

/-- The eight driver commands that need the Bound state (60_exceptions.md R143, R145). -/
def Instr.needsBound : Instr → Bool
  | .wakeup | .shutdown | .setht _ | .setlt _ | .setconfig | .setpsconfig | .getch _ | .getintevt => true
  | .beginBind _ _ => false
  | .mclr16 | .mclr8 | .mld16 _ _ | .mld8 _ _ | .msetf16 _ _ _ | .msetf8 _ _ _ => false
  | .setgain _ | .setit _ | .setpers _ | .setint _ | .setsd _ | .setpsm _ | .setpsmen _ => false
  | .mgetf16 _ _ | .mgetf8 _ _ | .getgain | .getit | .getpers | .getint | .getsd | .getpsm | .getpsmen => false

/-- The 225 reserved opcodes: 0x00, 0x09 to 0x0F, 0x17, 0x1F, 0x29 to 0xFF (30_encoding.md R64). -/
def reservedOp (op : Byte) : Bool :=
  let n := op.toNat
  n == 0x00 || (0x09 ≤ n && n ≤ 0x0F) || n == 0x17 || n == 0x1F || 0x29 ≤ n

namespace Machine

/-- The last command was refused by the block: `res_fault` is not 0. -/
def State.faulted (s : State) : Bool :=
  match s.res with
  | some r => r.fault != 0
  | none => false

/-- A run of `k` steps is good when no command of it faulted (60_exceptions.md R143: "the faulted run is not a good run"). -/
def goodRun : Nat → State → Bool
  | 0, _ => true
  | k + 1, s =>
    match step s with
    | .next t => !t.faulted && goodRun k t
    | .fault _ => false
    | .refused _ => false

/-- An event the block can emit (20_memory.md R41, R45, R47): a read of a read-only register with no data, a full write of a 16-bit
register, or a partial write of CONF or PSCONF, for PSCONF of the low byte only. -/
def Event.legal (e : Event) : Bool :=
  match e.kind with
  | .read => (e.reg == 0x04 || e.reg == 0x05 || e.reg == 0x06) && e.wdata == 0 && e.wmask == 0
  | .write => (e.reg == 0x00 || e.reg == 0x01 || e.reg == 0x02) && e.wmask == 0xFFFF
  | .rmw => e.wmask != 0xFFFF &&
      (e.reg == 0x00 || (e.reg == 0x03 && e.wdata &&& 0xFF00 == 0 && e.wmask &&& 0xFF00 == 0))

/-- Results the block can deliver (30_encoding.md R65, R67): fault code 3 is not used, and a present field comes with success. -/
def Results.legal (r : Results) : Bool := r.fault != 3 && (r.fault != 0 || !r.present || r.err == 0)

/-- The machine's invariant: every event of the history is legal, so are the results on the port, and a waiting block delivers no
result and has emitted an event (30_encoding.md R65; 70_reset_and_hazards.md R170). -/
def State.Inv (s : State) : Prop :=
  (∀ e ∈ s.events, e.legal = true) ∧ (∀ r ∈ s.res, r.legal = true) ∧ (s.waiting = true → s.res = none ∧ s.events ≠ [])

/-- `s` with other values in the four stored registers. -/
def State.withStored (s : State) (conf wh wl psconf : Word) : State :=
  { s with conf := conf, wh := wh, wl := wl, psconf := psconf }

/-- The state of a block in which nothing but the stored registers may differ from `t`'s (70_reset_and_hazards.md R166). -/
def State.sameButStored (s t : State) : Prop := s.withStored t.conf t.wh t.wl t.psconf = t

end Machine

end Sys2Proof
end

