-- ==== Sys2Proof/Certificates/Slice0/Obligations.lean ====
section
/-! DEFINITION. The statements for the provers. A next state is written out as the old one with the changed fields, so each such equation is
the command's result, its completion and its frame at once. -/

open Sys2Proof Sys2Proof.Machine

/-! ### Encoding -/

/-- Decoding the word of a command gives the command back, every operand at every value (30_encoding.md sections 1 to 3). -/
def Obligations.DecodeEncodeRoundTrip : Prop :=
  ∀ i : Instr, i.wellFormed = true ∧ decode (encode i) = .ok i

/-- A word decodes to a command exactly when the bits the command reads are those of its encoding; and `op` alone selects the command
(30_encoding.md R62). -/
def Obligations.UnusedBitsAreIgnored : Prop :=
  (∀ (w : CmdWord) (i : Instr), decode w = .ok i ↔ w &&& i.mnemonic.usedBits = encode i) ∧
  (∀ w w' : CmdWord, w &&& 0xFF0000000000 = w' &&& 0xFF0000000000 →
    (decode w).toOption.map Instr.mnemonic = (decode w').toOption.map Instr.mnemonic)

/-- A command word is the number of R60's formula, its fields stand at R60's bits, and R60's example is right (30_encoding.md section 1). -/
def Obligations.CommandWordLayout : Prop :=
  (∀ (op : Byte) (rsv sh : BitVec 4) (b a : Word),
    c48 op rsv sh b a = op.setWidth 48 <<< 40 ||| rsv.setWidth 48 <<< 36 ||| sh.setWidth 48 <<< 32 |||
      b.setWidth 48 <<< 16 ||| a.setWidth 48 ∧
    (c48 op rsv sh b a).extractLsb' 40 8 = op ∧ (c48 op rsv sh b a).extractLsb' 36 4 = rsv ∧
    (c48 op rsv sh b a).extractLsb' 32 4 = sh ∧ (c48 op rsv sh b a).extractLsb' 16 16 = b ∧
    (c48 op rsv sh b a).extractLsb' 0 16 = a) ∧
  c48 0x05 0 4 0x0FF0 0x00FF = 0x05040FF000FF

/-- `IllegalCommand` is raised on the 225 reserved opcodes, and decoding raises nothing else (60_exceptions.md R144). -/
def Obligations.IllegalCommandExactlyOnReservedOpcodes : Prop :=
  (∀ w : CmdWord, decodeCommand w = .error (.illegalCommand (opField w)) ↔ reservedOp (opField w) = true) ∧
  (∀ (w : CmdWord) (f : Fault), decodeCommand w = .error f → f = .illegalCommand (opField w)) ∧
  ((List.range 256).filter (fun n => reservedOp (BitVec.ofNat 8 n))).length = 225

/-- Words of the spec's rules and vectors decode to what they stand for (40_composer.md and 41_driver.md examples; 95_test_vectors.md). -/
def Obligations.SampleWordsDecode : Prop :=
  decode 0x03000001FFFF = .ok (.mld16 0xFFFF 0x0001) ∧ decode 0x05040FF000FF = .ok (.msetf16 0x00FF 0x0FF0 4) ∧
  decode 0x080100060000 = .ok (.mgetf8 0x06 1) ∧ decode 0x10F5ABCD0001 = .ok (.setgain 1) ∧
  decode 0x1C0000000000 = .ok .getsd ∧ decode 0x200000010010 = .ok (.beginBind 0x10 true) ∧
  decode 0x230000002710 = .ok (.setht 0x2710) ∧ decode 0x270000000005 = .ok (.getch 0x05) ∧
  decode 0x000000000000 = .error (.reservedOp 0x00) ∧ decode 0x170000000001 = .error (.reservedOp 0x17)

/-- The line that writes a command assembles to the command's word; an operand that does not fit, or a missing one, is an error
(30_encoding.md section 6). That an 8-bit, 7-bit or 1-bit operand has that width is the model's reading of "its field" (log 14). -/
def Obligations.AssembledLineIsItsEncoding : Prop :=
  (∀ i : Instr, assemble i.line = .ok [encode i]) ∧
  (∀ l : AsmLine, (∃ ws, assemble l = .ok ws) ↔
    l.operands.length = l.op.widths.length ∧ ∀ p ∈ l.operands.zip l.op.widths, p.1 < 2 ^ p.2)

/-- The three pseudo-instructions expand to the commands of R68, and no form of BEGIN omits the wake flag (30_encoding.md R68). -/
def Obligations.PseudoInstructionsExpand : Prop :=
  (∀ wakeUp : Bool, assemble { op := .beginDefault, operands := [wakeUp.toNat] } = .ok [encode (.beginBind 0x10 wakeUp)]) ∧
  (∀ v : Word, assemble { op := .setconfigFull, operands := [v.toNat] } = .ok [encode (.mld16 v 0xFFFF), encode .setconfig]) ∧
  (∀ v : Byte, assemble { op := .setpsconfigFull, operands := [v.toNat] } = .ok [encode (.mld8 v 0xFF), encode .setpsconfig]) ∧
  assemble { op := .command .beginBind, operands := [] } = .error .operandCount ∧
  assemble { op := .beginDefault, operands := [] } = .error .operandCount ∧
  (∀ n : Nat, assemble { op := .command .beginBind, operands := [n] } = .error .operandCount)

/-! ### The step -/

/-- A step of a ready block runs the command its port shows: the stream moves on, the pins are sampled, the last results go, and the
command's own outcome follows, a fault being reported on the result port (model's choice: log 2, log 3). -/
def Obligations.StepRunsDecodedCommand : Prop :=
  ∀ (s : State) (w : CmdWord) (e : Env) (rest : List Input) (i : Instr),
    s.waiting = false → s.inputs = .command w e :: rest → decode w = .ok i →
    step s =
      match exec i { s with inputs := rest, res := none, env := e } with
      | .next t => .next t
      | .fault f => .next (State.reportFault { s with inputs := rest, res := none, env := e } f)
      | .refused r => .refused r

/-- A faulting command changes no state and emits no event; `res_fault` shows its code, and the block is ready for the next command
(60_exceptions.md section 2; that the step goes on is the model's choice, log 3, and the other results are free values, log 4). -/
def Obligations.FaultedCommandChangesNothing : Prop :=
  ∀ (s : State) (w : CmdWord) (e : Env) (rest : List Input) (f : Fault),
    s.waiting = false → s.inputs = .command w e :: rest →
    ((∃ op, decode w = .error (.reservedOp op) ∧ f = .illegalCommand op) ∨
     (∃ i, decode w = .ok i ∧ i.needsBound = true ∧ s.bound = false ∧ f = .notBound (opField w))) →
    ∃ r t, step s = .next t ∧ r.fault = (match f with | .illegalCommand _ => 1 | .notBound _ => 2) ∧
      t = { s with inputs := rest, env := e, res := some r, draws := s.draws + 3 } ∧ t.cmdReady = true

/-- Where nothing is presented, a step changes nothing but the stream and the end of the last results (model's choice: log 2, log 11). -/
def Obligations.NothingPresentedChangesNothing : Prop :=
  ∀ s : State, (s.inputs = [] ∨ ∃ rest, s.inputs = .idle :: rest) →
    step s = .next { s with inputs := s.inputs.tail, res := none }

/-- What reset leaves (10_state.md section 7; 70_reset_and_hazards.md section 1): both accumulators fresh, Unbound, ADDR without a value,
the four registers at their parameters, idle and ready, no result. -/
def Obligations.ResetLeavesStatedValues : Prop :=
  State.reset.acc16 = ⟨0x0000, 0x0000⟩ ∧ State.reset.acc8 = ⟨0x00, 0x00⟩ ∧ State.reset.bound = false ∧
  State.reset.devAddrOut = none ∧ State.reset.conf = Config.rst.conf ∧ State.reset.wh = Config.rst.wh ∧
  State.reset.wl = Config.rst.wl ∧ State.reset.psconf = Config.rst.psconf ∧ State.reset.cmdReady = true ∧
  State.reset.resValid = false

/-- A step in which `rst` is high puts every state element at its reset value from any state, a waiting block too; it delivers no result
and emits no event (70_reset_and_hazards.md section 1; that the history, the pins and the stream stay is the model's choice, log 10). -/
def Obligations.RstRestoresEveryElement : Prop :=
  ∀ (s : State) (rest : List Input), s.inputs = .rst :: rest →
    ∃ t, step s = .next t ∧ t.acc16 = ⟨0x0000, 0x0000⟩ ∧ t.acc8 = ⟨0x00, 0x00⟩ ∧ t.bound = false ∧ t.devAddrOut = none ∧
      t.conf = Config.rst.conf ∧ t.wh = Config.rst.wh ∧ t.wl = Config.rst.wl ∧ t.psconf = Config.rst.psconf ∧
      t.cmdReady = true ∧ t.res = none ∧ t.inputs = rest ∧ t.events = s.events ∧ t.env = s.env

/-- A transaction the transport never answers: its event is out, nothing else changed, no result, `cmd_ready` low. For every command that
transacts (70_reset_and_hazards.md section 4; the model's reading, log 8). -/
def Obligations.SilentTransportLeavesBlockWaiting : Prop :=
  ∀ s : State, s.env.answers = false →
    (∀ address : BitVec 7, exec (.beginBind address true) s =
      .next { s with events := s.events ++ [⟨.rmw, address, 0x00, 0x0000, 0x0001⟩], waiting := true, res := none }) ∧
    (s.bound = true →
      exec .wakeup s =
        .next { s with events := s.events ++ [⟨.rmw, s.addr, 0x00, 0x0000, 0x0001⟩], waiting := true, res := none } ∧
      exec .shutdown s =
        .next { s with events := s.events ++ [⟨.rmw, s.addr, 0x00, 0x0001, 0x0001⟩], waiting := true, res := none } ∧
      (∀ v : Word, exec (.setht v) s =
        .next { s with events := s.events ++ [⟨.write, s.addr, 0x01, v, 0xFFFF⟩], waiting := true, res := none }) ∧
      (∀ v : Word, exec (.setlt v) s =
        .next { s with events := s.events ++ [⟨.write, s.addr, 0x02, v, 0xFFFF⟩], waiting := true, res := none }) ∧
      exec .setconfig s =
        .next { s with
          events := s.events ++ [⟨if s.acc16.mask = 0xFFFF then .write else .rmw, s.addr, 0x00, s.acc16.value, s.acc16.mask⟩]
          waiting := true, res := none } ∧
      exec .setpsconfig s =
        .next { s with
          events := s.events ++ [⟨.rmw, s.addr, 0x03, s.acc8.value.setWidth 16, s.acc8.mask.setWidth 16⟩]
          waiting := true, res := none } ∧
      exec (.getch 0x04) s =
        .next { s with events := s.events ++ [⟨.read, s.addr, 0x04, 0, 0⟩], waiting := true, res := none } ∧
      exec (.getch 0x05) s =
        .next { s with events := s.events ++ [⟨.read, s.addr, 0x05, 0, 0⟩], waiting := true, res := none } ∧
      exec .getintevt s =
        .next { s with events := s.events ++ [⟨.read, s.addr, 0x06, 0, 0⟩], waiting := true, res := none })

/-- While the block waits for the transport it accepts nothing: whatever is presented but `rst` changes nothing
(70_reset_and_hazards.md section 4; model's choice: log 8, log 9). -/
def Obligations.OnlyRstEndsAWait : Prop :=
  ∀ s : State, s.waiting = true →
    (∀ rest, s.inputs ≠ .rst :: rest) → step s = .next { s with inputs := s.inputs.tail, res := none }

/-- Every state has a next one: no step ends in a fault or a refusal, and no command is refused (60_exceptions.md section 2 and
70_reset_and_hazards.md section 4; model's choice: log 3, log 8). -/
def Obligations.StepAlwaysAnswersANextState : Prop :=
  (∀ s : State, ∃ t, step s = .next t) ∧ (∀ (i : Instr) (s : State) (r : Refusal), exec i s ≠ .refused r)

/-! ### Composer commands -/

/-- MCLR16 and MCLR8 (40_composer.md R86, R87). -/
def Obligations.ClearCommandsMakeFresh : Prop :=
  (∀ (rsv sh : BitVec 4) (b a : Word),
    decode (c48 0x01 rsv sh b a) = .ok .mclr16 ∧ decode (c48 0x02 rsv sh b a) = .ok .mclr8) ∧
  ∀ s : State,
    exec .mclr16 s = .next { s with acc16 := ⟨0x0000, 0x0000⟩, res := some ⟨0, 0x0000, false, 0⟩ } ∧
    exec .mclr8 s = .next { s with acc8 := ⟨0x00, 0x00⟩, res := some ⟨0, 0x0000, false, 0⟩ }

/-- MLD16 and MLD8; a load of surplus value bits reaches CONF under its mask only (40_composer.md R88, R89). -/
def Obligations.LoadCommandsReplaceThePair : Prop :=
  (∀ (rsv sh : BitVec 4) (b a : Word),
    decode (c48 0x03 rsv sh b a) = .ok (.mld16 a b) ∧
    decode (c48 0x04 rsv sh b a) = .ok (.mld8 (a.extractLsb' 0 8) (b.extractLsb' 0 8))) ∧
  ∀ s : State,
    (∀ v m : Word, exec (.mld16 v m) s = .next { s with acc16 := ⟨v, m⟩, res := some ⟨0, 0x0000, false, 0⟩ }) ∧
    (∀ v m : Byte, exec (.mld8 v m) s = .next { s with acc8 := ⟨v, m⟩, res := some ⟨0, 0x0000, false, 0⟩ }) ∧
    exec (.mld16 0 0) s = exec .mclr16 s ∧ exec (.mld8 0 0) s = exec .mclr8 s ∧
    (s.bound = true → s.env.answers = true → s.env.terr = 0 →
      ∃ t u, exec (.mld16 0xFFFF 0x0001) s = .next t ∧ exec .setconfig t = .next u ∧ u.conf = s.conf ||| 0x0001)

/-- MSETF16 and MSETF8: the set-field function, whose shift may as well be formed at the width of the accumulator; an empty mask changes
nothing, a full one loads (40_composer.md R82, R90, R91). -/
def Obligations.GenericSetFieldInsertsUnderMask : Prop :=
  (∀ (rsv sh : BitVec 4) (b a : Word),
    decode (c48 0x05 rsv sh b a) = .ok (.msetf16 a b sh) ∧
    decode (c48 0x06 rsv sh b a) = .ok (.msetf8 (a.extractLsb' 0 8) (b.extractLsb' 0 8) sh)) ∧
  (∀ (s : State) (fv fm : Word) (sh : BitVec 4), exec (.msetf16 fv fm sh) s =
    .next { s with
      acc16 := ⟨(s.acc16.value &&& ~~~fm) ||| ((fv.setWidth 32 <<< sh.toNat) &&& fm.setWidth 32).setWidth 16, s.acc16.mask ||| fm⟩
      res := some ⟨0, 0x0000, false, 0⟩ }) ∧
  (∀ (s : State) (fv fm : Byte) (sh : BitVec 4), exec (.msetf8 fv fm sh) s =
    .next { s with
      acc8 := ⟨(s.acc8.value &&& ~~~fm) ||| ((fv.setWidth 32 <<< sh.toNat) &&& fm.setWidth 32).setWidth 8, s.acc8.mask ||| fm⟩
      res := some ⟨0, 0x0000, false, 0⟩ }) ∧
  (∀ (fv fm : Word) (sh : BitVec 4),
    ((fv.setWidth 32 <<< sh.toNat) &&& fm.setWidth 32).setWidth 16 = (fv <<< sh.toNat) &&& fm) ∧
  (∀ (fv fm : Byte) (sh : BitVec 4),
    ((fv.setWidth 32 <<< sh.toNat) &&& fm.setWidth 32).setWidth 8 = (fv <<< sh.toNat) &&& fm) ∧
  (∀ (s : State) (v : Word) (sh : BitVec 4), exec (.msetf16 v 0 sh) s = .next { s with res := some ⟨0, 0x0000, false, 0⟩ } ∧
    exec (.msetf16 v 0xFFFF 0) s = .next { s with acc16 := ⟨v, 0xFFFF⟩, res := some ⟨0, 0x0000, false, 0⟩ }) ∧
  (∀ (s : State) (v : Byte) (sh : BitVec 4), exec (.msetf8 v 0 sh) s = .next { s with res := some ⟨0, 0x0000, false, 0⟩ } ∧
    exec (.msetf8 v 0xFF 0) s = .next { s with acc8 := ⟨v, 0xFF⟩, res := some ⟨0, 0x0000, false, 0⟩ })

/-- MGETF16 and MGETF8: the get-field function (40_composer.md R83, R92, R93). -/
def Obligations.GenericGetFieldReadsOrIsAbsent : Prop :=
  (∀ (rsv sh : BitVec 4) (b a : Word),
    decode (c48 0x07 rsv sh b a) = .ok (.mgetf16 b sh) ∧
    decode (c48 0x08 rsv sh b a) = .ok (.mgetf8 (b.extractLsb' 0 8) sh)) ∧
  (∀ (s : State) (fm : Word) (sh : BitVec 4), exec (.mgetf16 fm sh) s =
    .next { s with
      res := some (if s.acc16.mask &&& fm ≠ fm then ⟨0, 0x00FF, false, 0⟩
                   else ⟨0, (s.acc16.value &&& fm) >>> sh.toNat, true, 0⟩) }) ∧
  (∀ (s : State) (fm : Byte) (sh : BitVec 4), exec (.mgetf8 fm sh) s =
    .next { s with
      res := some (if s.acc8.mask &&& fm ≠ fm then ⟨0, 0x00FF, false, 0⟩
                   else ⟨0, ((s.acc8.value &&& fm) >>> sh.toNat).setWidth 16, true, 0⟩) }) ∧
  (∀ (s t : State) (fm : Byte) (sh : BitVec 4), exec (.mgetf8 fm sh) s = .next t → ∃ r, t.res = some r ∧ r.data.toNat ≤ 0x00FF)

/-- At width 8 a shift of 8 or more moves every bit out: a set inserts zero, a present get reads zero (40_composer.md section 1). -/
def Obligations.NarrowShiftOfEightOrMoreIsZero : Prop :=
  ∀ (s : State) (fv fm : Byte) (sh : BitVec 4), 8 ≤ sh.toNat →
    exec (.msetf8 fv fm sh) s =
      .next { s with acc8 := ⟨s.acc8.value &&& ~~~fm, s.acc8.mask ||| fm⟩, res := some ⟨0, 0x0000, false, 0⟩ } ∧
    (s.acc8.mask &&& fm = fm → exec (.mgetf8 fm sh) s = .next { s with res := some ⟨0, 0x0000, true, 0⟩ })

/-- SETGAIN, SETIT, SETPERS and SETINT, each with its descriptor built in; only the low bits of the operand matter
(40_composer.md R94 to R97). -/
def Obligations.TypedSetsOfConfigFields : Prop :=
  (∀ (rsv sh : BitVec 4) (b a : Word),
    decode (c48 0x10 rsv sh b a) = .ok (.setgain a) ∧ decode (c48 0x11 rsv sh b a) = .ok (.setit a) ∧
    decode (c48 0x12 rsv sh b a) = .ok (.setpers a) ∧ decode (c48 0x13 rsv sh b a) = .ok (.setint a)) ∧
  (∀ (s : State) (v : Word),
    exec (.setgain v) s = .next { s with
      acc16 := ⟨(s.acc16.value &&& 0xE7FF) ||| ((v.setWidth 32 <<< 11) &&& 0x1800).setWidth 16, s.acc16.mask ||| 0x1800⟩
      res := some ⟨0, 0x0000, false, 0⟩ } ∧
    exec (.setit v) s = .next { s with
      acc16 := ⟨(s.acc16.value &&& 0xFC3F) ||| ((v.setWidth 32 <<< 6) &&& 0x03C0).setWidth 16, s.acc16.mask ||| 0x03C0⟩
      res := some ⟨0, 0x0000, false, 0⟩ } ∧
    exec (.setpers v) s = .next { s with
      acc16 := ⟨(s.acc16.value &&& 0xFFCF) ||| ((v.setWidth 32 <<< 4) &&& 0x0030).setWidth 16, s.acc16.mask ||| 0x0030⟩
      res := some ⟨0, 0x0000, false, 0⟩ } ∧
    exec (.setint v) s = .next { s with
      acc16 := ⟨(s.acc16.value &&& 0xFFFD) ||| ((v.setWidth 32 <<< 1) &&& 0x0002).setWidth 16, s.acc16.mask ||| 0x0002⟩
      res := some ⟨0, 0x0000, false, 0⟩ }) ∧
  (∀ (s : State) (v : Word),
    exec (.setgain v) s = exec (.setgain (v &&& 0x0003)) s ∧ exec (.setit v) s = exec (.setit (v &&& 0x000F)) s ∧
    exec (.setpers v) s = exec (.setpers (v &&& 0x0003)) s ∧ exec (.setint v) s = exec (.setint (v &&& 0x0001)) s)

/-- SETSD; and SETSD 0 then SETCONFIG does to CONF what WAKEUP does, SETSD 1 then SETCONFIG what SHUTDOWN does, from a fresh accumulator
(40_composer.md section 4). With a bad verdict both CONFs are the free value of one draw: equal in the model only, log 4. -/
def Obligations.SetsdComposesTheShutdownBit : Prop :=
  (∀ (rsv sh : BitVec 4) (b a : Word), decode (c48 0x14 rsv sh b a) = .ok (.setsd a)) ∧
  (∀ (s : State) (v : Word),
    exec (.setsd v) s = .next { s with
      acc16 := ⟨(s.acc16.value &&& 0xFFFE) ||| (v &&& 0x0001), s.acc16.mask ||| 0x0001⟩
      res := some ⟨0, 0x0000, false, 0⟩ } ∧
    exec (.setsd v) s = exec (.setsd (v &&& 0x0001)) s) ∧
  (∀ s : State, s.bound = true → s.env.answers = true → s.acc16 = ⟨0, 0⟩ →
    (∃ t u x, exec (.setsd 0) s = .next t ∧ exec .setconfig t = .next u ∧ exec .wakeup s = .next x ∧ u.conf = x.conf) ∧
    (∃ t u x, exec (.setsd 1) s = .next t ∧ exec .setconfig t = .next u ∧ exec .shutdown s = .next x ∧ u.conf = x.conf))

/-- SETPSM and SETPSMEN (40_composer.md R99, R100). -/
def Obligations.TypedSetsOfPsconfFields : Prop :=
  (∀ (rsv sh : BitVec 4) (b a : Word),
    decode (c48 0x15 rsv sh b a) = .ok (.setpsm (a.extractLsb' 0 8)) ∧
    decode (c48 0x16 rsv sh b a) = .ok (.setpsmen (a.extractLsb' 0 8))) ∧
  (∀ (s : State) (v : Byte),
    exec (.setpsm v) s = .next { s with
      acc8 := ⟨(s.acc8.value &&& 0xF9) ||| ((v.setWidth 32 <<< 1) &&& 0x06).setWidth 8, s.acc8.mask ||| 0x06⟩
      res := some ⟨0, 0x0000, false, 0⟩ } ∧
    exec (.setpsmen v) s = .next { s with
      acc8 := ⟨(s.acc8.value &&& 0xFE) ||| (v &&& 0x01), s.acc8.mask ||| 0x01⟩
      res := some ⟨0, 0x0000, false, 0⟩ }) ∧
  (∀ (s : State) (v : Byte),
    exec (.setpsm v) s = exec (.setpsm (v &&& 0x03)) s ∧ exec (.setpsmen v) s = exec (.setpsmen (v &&& 0x01)) s)

/-- GETGAIN, GETIT, GETPERS, GETINT and GETSD: no state changes; an absent field reads 0x00FF with `res_present` 0; present data stays
inside the field's width (40_composer.md R101 to R105). -/
def Obligations.TypedGetsOfConfigFields : Prop :=
  (∀ (rsv sh : BitVec 4) (b a : Word),
    decode (c48 0x18 rsv sh b a) = .ok .getgain ∧ decode (c48 0x19 rsv sh b a) = .ok .getit ∧
    decode (c48 0x1A rsv sh b a) = .ok .getpers ∧ decode (c48 0x1B rsv sh b a) = .ok .getint ∧
    decode (c48 0x1C rsv sh b a) = .ok .getsd) ∧
  (∀ s : State,
    exec .getgain s = .next { s with res := some (if s.acc16.mask &&& 0x1800 ≠ 0x1800 then ⟨0, 0x00FF, false, 0⟩
      else ⟨0, (s.acc16.value &&& 0x1800) >>> 11, true, 0⟩) } ∧
    exec .getit s = .next { s with res := some (if s.acc16.mask &&& 0x03C0 ≠ 0x03C0 then ⟨0, 0x00FF, false, 0⟩
      else ⟨0, (s.acc16.value &&& 0x03C0) >>> 6, true, 0⟩) } ∧
    exec .getpers s = .next { s with res := some (if s.acc16.mask &&& 0x0030 ≠ 0x0030 then ⟨0, 0x00FF, false, 0⟩
      else ⟨0, (s.acc16.value &&& 0x0030) >>> 4, true, 0⟩) } ∧
    exec .getint s = .next { s with res := some (if s.acc16.mask &&& 0x0002 ≠ 0x0002 then ⟨0, 0x00FF, false, 0⟩
      else ⟨0, (s.acc16.value &&& 0x0002) >>> 1, true, 0⟩) } ∧
    exec .getsd s = .next { s with res := some (if s.acc16.mask &&& 0x0001 ≠ 0x0001 then ⟨0, 0x00FF, false, 0⟩
      else ⟨0, s.acc16.value &&& 0x0001, true, 0⟩) }) ∧
  (∀ v : Word,
    ((v &&& 0x1800) >>> 11).toNat ≤ 3 ∧ ((v &&& 0x03C0) >>> 6).toNat ≤ 15 ∧ ((v &&& 0x0030) >>> 4).toNat ≤ 3 ∧
    ((v &&& 0x0002) >>> 1).toNat ≤ 1 ∧ (v &&& 0x0001).toNat ≤ 1)

/-- GETPSM and GETPSMEN (40_composer.md R106, R107). -/
def Obligations.TypedGetsOfPsconfFields : Prop :=
  (∀ (rsv sh : BitVec 4) (b a : Word),
    decode (c48 0x1D rsv sh b a) = .ok .getpsm ∧ decode (c48 0x1E rsv sh b a) = .ok .getpsmen) ∧
  (∀ s : State,
    exec .getpsm s = .next { s with res := some (if s.acc8.mask &&& 0x06 ≠ 0x06 then ⟨0, 0x00FF, false, 0⟩
      else ⟨0, ((s.acc8.value &&& 0x06) >>> 1).setWidth 16, true, 0⟩) } ∧
    exec .getpsmen s = .next { s with res := some (if s.acc8.mask &&& 0x01 ≠ 0x01 then ⟨0, 0x00FF, false, 0⟩
      else ⟨0, (s.acc8.value &&& 0x01).setWidth 16, true, 0⟩) }) ∧
  (∀ v : Byte, (((v &&& 0x06) >>> 1).setWidth 16 : Word).toNat ≤ 3 ∧ ((v &&& 0x01).setWidth 16 : Word).toNat ≤ 1)

/-- Every composer command completes with `res_err` 0 in any state, Unbound too; it touches no register, emits no event, and neither reads
`env` nor depends on BOUND. The set, load and clear commands answer no data, the get commands change no state (40_composer.md R80). -/
def Obligations.ComposerCommandsTouchNoRegister : Prop :=
  ∀ (i : Instr) (s : State), i.isComposer = true →
    ∃ acc16 acc8 r,
      (∀ (b : Bool) (e : Env), exec i { s with bound := b, env := e } =
        .next { s with bound := b, env := e, acc16 := acc16, acc8 := acc8, res := some r }) ∧
      r.err = 0 ∧ r.fault = 0 ∧ (i.isGet = false → r.data = 0x0000 ∧ r.present = false) ∧
      (i.isGet = true → acc16 = s.acc16 ∧ acc8 = s.acc8)

/-! ### Laws of fields -/

/-- A field that was set is present and reads as the part of the value that lands inside the mask; it is the value itself if and only if
every 1 bit of it, moved up, lands inside the mask (40_composer.md section 1, law 1 of its list; 95_test_vectors.md S1). -/
def Obligations.FieldRoundTrip : Prop :=
  (∀ (s : State) (v m : Word) (sh : BitVec 4), ∃ t u d, exec (.msetf16 v m sh) s = .next t ∧
    exec (.mgetf16 m sh) t = .next u ∧ u.res = some ⟨0, d, true, 0⟩ ∧ d = ((v <<< sh.toNat) &&& m) >>> sh.toNat ∧
    (d = v ↔ (v.setWidth 32 <<< sh.toNat) &&& ~~~(m.setWidth 32) = 0)) ∧
  (∀ (s : State) (v m : Byte) (sh : BitVec 4), ∃ t u d, exec (.msetf8 v m sh) s = .next t ∧
    exec (.mgetf8 m sh) t = .next u ∧ u.res = some ⟨0, d.setWidth 16, true, 0⟩ ∧
    d = ((v <<< sh.toNat) &&& m) >>> sh.toNat ∧
    (d = v ↔ (v.setWidth 32 <<< sh.toNat) &&& ~~~(m.setWidth 32) = 0))

/-- Setting a field leaves every disjoint field as it was: its value bits, its mask bits, and what any get of it answers
(40_composer.md section 1, law 2; 95_test_vectors.md S2). -/
def Obligations.DisjointFieldsDoNotDisturb : Prop :=
  (∀ (s : State) (v mA mB : Word) (shA shB : BitVec 4), mA &&& mB = 0 →
    ∃ t x y, exec (.msetf16 v mB shB) s = .next t ∧ t.acc16.value &&& mA = s.acc16.value &&& mA ∧
      t.acc16.mask &&& mA = s.acc16.mask &&& mA ∧
      exec (.mgetf16 mA shA) s = .next x ∧ exec (.mgetf16 mA shA) t = .next y ∧ y.res = x.res) ∧
  (∀ (s : State) (v mA mB : Byte) (shA shB : BitVec 4), mA &&& mB = 0 →
    ∃ t x y, exec (.msetf8 v mB shB) s = .next t ∧ t.acc8.value &&& mA = s.acc8.value &&& mA ∧
      t.acc8.mask &&& mA = s.acc8.mask &&& mA ∧
      exec (.mgetf8 mA shA) s = .next x ∧ exec (.mgetf8 mA shA) t = .next y ∧ y.res = x.res)

/-- A get is present exactly when every bit of its mask is specified, whether one set or several specified them; the empty mask is always
present with data 0 (40_composer.md section 1, laws 3 and 6; 95_test_vectors.md S3). -/
def Obligations.PresentIffEveryBitIsSpecified : Prop :=
  (∀ (s : State) (fm : Word) (sh : BitVec 4), ∃ t r, exec (.mgetf16 fm sh) s = .next t ∧ t.res = some r ∧
    (r.present = true ↔ ∀ k < 16, fm.getLsbD k = true → s.acc16.mask.getLsbD k = true) ∧
    (r.present = false → r.data = 0x00FF)) ∧
  (∀ (s : State) (fm : Byte) (sh : BitVec 4), ∃ t r, exec (.mgetf8 fm sh) s = .next t ∧ t.res = some r ∧
    (r.present = true ↔ ∀ k < 8, fm.getLsbD k = true → s.acc8.mask.getLsbD k = true) ∧
    (r.present = false → r.data = 0x00FF)) ∧
  (∀ (s : State) (sh : BitVec 4), exec (.mgetf16 0 sh) s = .next { s with res := some ⟨0, 0x0000, true, 0⟩ } ∧
    exec (.mgetf8 0 sh) s = .next { s with res := some ⟨0, 0x0000, true, 0⟩ }) ∧
  (∀ (s : State) (vA vB mA mB fm : Word) (shA shB sh : BitVec 4), fm &&& ~~~(mA ||| mB) = 0 →
    ∃ t u x r, exec (.msetf16 vA mA shA) s = .next t ∧ exec (.msetf16 vB mB shB) t = .next u ∧
      exec (.mgetf16 fm sh) u = .next x ∧ x.res = some r ∧ r.present = true) ∧
  (∀ (s : State) (vA vB mA mB fm : Byte) (shA shB sh : BitVec 4), fm &&& ~~~(mA ||| mB) = 0 →
    ∃ t u x r, exec (.msetf8 vA mA shA) s = .next t ∧ exec (.msetf8 vB mB shB) t = .next u ∧
      exec (.mgetf8 fm sh) u = .next x ∧ x.res = some r ∧ r.present = true)

/-- A second set of a field replaces its value and leaves the mask as it was; a set of an overlapping field clears the first one's bits
under its mask and leaves the first one present (40_composer.md section 1, laws 4 and 5). -/
def Obligations.LaterSetReplacesUnderItsMask : Prop :=
  (∀ (s : State) (v v' m : Word) (sh : BitVec 4), ∃ t u x, exec (.msetf16 v m sh) s = .next t ∧
    exec (.msetf16 v' m sh) t = .next u ∧ exec (.msetf16 v' m sh) s = .next x ∧ u.acc16 = x.acc16 ∧ u.acc16.mask = t.acc16.mask) ∧
  (∀ (s : State) (vA vB mA mB : Word) (shA shB : BitVec 4), ∃ t u x r, exec (.msetf16 vA mA shA) s = .next t ∧
    exec (.msetf16 vB mB shB) t = .next u ∧
    u.acc16.value &&& mA &&& ~~~mB = t.acc16.value &&& mA &&& ~~~mB ∧
    u.acc16.value &&& mA &&& mB = (vB <<< shB.toNat) &&& mA &&& mB ∧
    exec (.mgetf16 mA shA) u = .next x ∧ x.res = some r ∧ r.present = true) ∧
  (∀ (s : State) (v v' m : Byte) (sh : BitVec 4), ∃ t u x, exec (.msetf8 v m sh) s = .next t ∧
    exec (.msetf8 v' m sh) t = .next u ∧ exec (.msetf8 v' m sh) s = .next x ∧ u.acc8 = x.acc8 ∧ u.acc8.mask = t.acc8.mask) ∧
  (∀ (s : State) (vA vB mA mB : Byte) (shA shB : BitVec 4), ∃ t u x r, exec (.msetf8 vA mA shA) s = .next t ∧
    exec (.msetf8 vB mB shB) t = .next u ∧
    u.acc8.value &&& mA &&& ~~~mB = t.acc8.value &&& mA &&& ~~~mB ∧
    u.acc8.value &&& mA &&& mB = (vB <<< shB.toNat) &&& mA &&& mB ∧
    exec (.mgetf8 mA shA) u = .next x ∧ x.res = some r ∧ r.present = true)

/-- From accumulators whose value bits all lie inside the mask, the set, get, clear and driver commands keep them so: only a raw load can
leave value bits outside the mask (40_composer.md section 1, law 7; 10_state.md section 1). -/
def Obligations.SetsKeepValueInsideMask : Prop :=
  ∀ (i : Instr) (s t : State), i.mnemonic ≠ .mld16 → i.mnemonic ≠ .mld8 →
    s.acc16.value &&& ~~~s.acc16.mask = 0 → s.acc8.value &&& ~~~s.acc8.mask = 0 → exec i s = .next t →
    t.acc16.value &&& ~~~t.acc16.mask = 0 ∧ t.acc8.value &&& ~~~t.acc8.mask = 0

/-- A built-in field never reads as the sentinel: 255 from a typed get means the field is absent; a generic get can read a real 255
(40_composer.md section 1, law 8; 90_conflicts.md C6). -/
def Obligations.BuiltInFieldNeverReadsAsSentinel : Prop :=
  (∀ (i : Instr) (s : State), i ∈ [Instr.getgain, .getit, .getpers, .getint, .getsd, .getpsm, .getpsmen] →
    ∃ t r, exec i s = .next t ∧ t.res = some r ∧ (r.data = 0x00FF ↔ r.present = false) ∧
      (r.present = true → r.data.toNat ≤ 15)) ∧
  (∀ s : State, s.acc16 = ⟨0x0FF0, 0x0FF0⟩ →
    exec (.mgetf16 0x0FF0 4) s = .next { s with res := some ⟨0, 0x00FF, true, 0⟩ })

/-! ### The register file -/

/-- The partial-write mux: its formula, bit by bit, and R44's corner cases: a full mask, an empty mask (which still transacts), surplus
value bits, applying it twice, and two writes with disjoint masks in either order (20_memory.md R44). -/
def Obligations.MuxChangesOnlyMaskedBits : Prop :=
  (∀ (s : State) (r : StoredReg) (v m : Word),
    s.memWriteMasked r.address v m = .ok (s.setStored r ((s.stored r &&& ~~~m) ||| (v &&& m))) ∧
    (∀ q, q ≠ r → (s.mergeStored r v m).stored q = s.stored q) ∧
    (∀ k < 16, ((s.mergeStored r v m).stored r).getLsbD k =
      if m.getLsbD k then v.getLsbD k else (s.stored r).getLsbD k)) ∧
  (∀ old v m : Word, mux old v 0xFFFF = v ∧ mux old v 0x0000 = old ∧ mux old (v &&& m) m = mux old v m ∧
    mux (mux old v m) v m = mux old v m) ∧
  (∀ old v1 m1 v2 m2 : Word, m1 &&& m2 = 0 → mux (mux old v1 m1) v2 m2 = mux (mux old v2 m2) v1 m1) ∧
  (∀ s : State, s.bound = true → s.env.answers = true → s.env.terr = 0 → s.acc16.mask = 0 →
    exec .setconfig s = .next { s with
      acc16 := ⟨0, 0⟩, events := s.events ++ [⟨.rmw, s.addr, 0x00, s.acc16.value, 0x0000⟩], res := some ⟨0, 0x0000, false, 0⟩ })

/-- The register map: what each address reads as, what a write at it does, and which addresses are refused
(20_memory.md sections 1 and 2; the refusals of the raw primitives: log 15). -/
def Obligations.RawRegisterAccess : Prop :=
  (∀ s : State, s.memRead 0x00 = .ok s.conf ∧ s.memRead 0x01 = .ok s.wh ∧ s.memRead 0x02 = .ok s.wl ∧
    s.memRead 0x03 = .ok s.psconf ∧ s.memRead 0x04 = .ok s.env.white ∧ s.memRead 0x05 = .ok s.env.als ∧
    s.memRead 0x06 = .ok s.env.intstat) ∧
  (∀ (s : State) (a : Byte) (v m : Word), 7 ≤ a.toNat →
    s.memRead a = .error (.noRegister a) ∧ s.memWriteMasked a v m = .error (.noRegister a)) ∧
  (∀ (s : State) (a : Byte) (v m : Word), a = 0x04 ∨ a = 0x05 ∨ a = 0x06 →
    s.memWriteMasked a v m = .error (.readOnlyRegister a)) ∧
  (∀ (s : State) (v : Word), s.memWrite 0x00 v = .ok { s with conf := v } ∧ s.memWrite 0x01 v = .ok { s with wh := v } ∧
    s.memWrite 0x02 v = .ok { s with wl := v } ∧ s.memWrite 0x03 v = .ok { s with psconf := v }) ∧
  (∀ (s t : State) (a b : Byte) (v m : Word), s.memWriteMasked a v m = .ok t → b ≠ a → t.memRead b = s.memRead b)

/-- `Commit`: exactly one event, `WRITE` for a full mask and `RMW` otherwise; verdict 0 merges the pair into the register, any other leaves
the next free value there; every other register stays, and the verdict is handed back unchanged (41_driver.md section 1; 20_memory.md
section 4). -/
def Obligations.CommitTakesOneVerdict : Prop :=
  ∀ (dev : BitVec 7) (r : StoredReg) (v m : Word) (after : State → State) (s : State), s.env.answers = true →
    ∃ t, commit dev r v m after s = .next ((after t).finish s.env.terr 0x0000 false) ∧
      t.events = s.events ++ [⟨if m = 0xFFFF then .write else .rmw, dev, r.address, v, m⟩] ∧
      t.stored r = (if s.env.terr = 0 then (s.stored r &&& ~~~m) ||| (v &&& m) else Config.junk s.draws) ∧
      t.draws = (if s.env.terr = 0 then s.draws else s.draws + 1) ∧
      (∀ q, q ≠ r → t.stored q = s.stored q) ∧
      t = { s with conf := t.conf, wh := t.wh, wl := t.wl, psconf := t.psconf, events := t.events, draws := t.draws }

/-! ### Driver commands -/

/-- `NotBound` is raised by the eight driver commands other than BEGIN while Unbound, and by nothing else; no command raises another fault
(60_exceptions.md R145). -/
def Obligations.NotBoundExactlyWhenUnbound : Prop :=
  ∀ (i : Instr) (s : State) (f : Fault),
    exec i s = .fault f ↔ i.needsBound = true ∧ s.bound = false ∧ f = .notBound i.mnemonic.op

/-- BEGIN binds in any state; with its wake flag it also clears CONF[0], under an event that carries the new address; a bad verdict does
not undo the binding, and leaves the free value of the next draw in CONF (41_driver.md section 2; free value: log 4). -/
def Obligations.BeginBindsAndMayWake : Prop :=
  (∀ (rsv sh : BitVec 4) (b a : Word),
    decode (c48 0x20 rsv sh b a) = .ok (.beginBind (a.extractLsb' 0 7) (b.getLsbD 0))) ∧
  (∀ (s : State) (address : BitVec 7),
    exec (.beginBind address false) s = .next { s with bound := true, addr := address, res := some ⟨0, 0x0000, false, 0⟩ }) ∧
  (∀ (s : State) (address : BitVec 7), s.env.answers = true → s.env.terr = 0 →
    exec (.beginBind address true) s = .next { s with
      bound := true, addr := address, conf := s.conf &&& 0xFFFE
      events := s.events ++ [⟨.rmw, address, 0x00, 0x0000, 0x0001⟩], res := some ⟨0, 0x0000, false, 0⟩ }) ∧
  (∀ (s : State) (address : BitVec 7), s.env.answers = true → s.env.terr ≠ 0 →
    exec (.beginBind address true) s = .next { s with
      bound := true, addr := address, conf := Config.junk s.draws, draws := s.draws + 1
      events := s.events ++ [⟨.rmw, address, 0x00, 0x0000, 0x0001⟩], res := some ⟨s.env.terr, 0x0000, false, 0⟩ })

/-- WAKEUP and SHUTDOWN touch bit 0 of CONF only, and neither read nor change `ACC16`; a bad verdict leaves the free value of the next
draw in CONF (41_driver.md section 2; free value: log 4). -/
def Obligations.WakeupAndShutdownTouchOneBit : Prop :=
  (∀ (rsv sh : BitVec 4) (b a : Word),
    decode (c48 0x21 rsv sh b a) = .ok .wakeup ∧ decode (c48 0x22 rsv sh b a) = .ok .shutdown) ∧
  (∀ s : State, s.bound = false → exec .wakeup s = .fault (.notBound 0x21) ∧ exec .shutdown s = .fault (.notBound 0x22)) ∧
  (∀ s : State, s.bound = true → s.env.answers = true → s.env.terr = 0 →
    exec .wakeup s = .next { s with
      conf := s.conf &&& 0xFFFE
      events := s.events ++ [⟨.rmw, s.addr, 0x00, 0x0000, 0x0001⟩], res := some ⟨0, 0x0000, false, 0⟩ } ∧
    exec .shutdown s = .next { s with
      conf := s.conf ||| 0x0001
      events := s.events ++ [⟨.rmw, s.addr, 0x00, 0x0001, 0x0001⟩], res := some ⟨0, 0x0000, false, 0⟩ }) ∧
  (∀ s : State, s.bound = true → s.env.answers = true → s.env.terr ≠ 0 →
    exec .wakeup s = .next { s with
      conf := Config.junk s.draws, draws := s.draws + 1
      events := s.events ++ [⟨.rmw, s.addr, 0x00, 0x0000, 0x0001⟩], res := some ⟨s.env.terr, 0x0000, false, 0⟩ } ∧
    exec .shutdown s = .next { s with
      conf := Config.junk s.draws, draws := s.draws + 1
      events := s.events ++ [⟨.rmw, s.addr, 0x00, 0x0001, 0x0001⟩], res := some ⟨s.env.terr, 0x0000, false, 0⟩ })

/-- SETHT and SETLT write their register whole, under a `WRITE` event; a bad verdict leaves the free value of the next draw there
(41_driver.md section 3; free value: log 4). -/
def Obligations.ThresholdWritesAreFull : Prop :=
  (∀ (rsv sh : BitVec 4) (b a : Word),
    decode (c48 0x23 rsv sh b a) = .ok (.setht a) ∧ decode (c48 0x24 rsv sh b a) = .ok (.setlt a)) ∧
  (∀ (s : State) (v : Word), s.bound = false →
    exec (.setht v) s = .fault (.notBound 0x23) ∧ exec (.setlt v) s = .fault (.notBound 0x24)) ∧
  (∀ (s : State) (v : Word), s.bound = true → s.env.answers = true → s.env.terr = 0 →
    exec (.setht v) s = .next { s with
      wh := v, events := s.events ++ [⟨.write, s.addr, 0x01, v, 0xFFFF⟩], res := some ⟨0, 0x0000, false, 0⟩ } ∧
    exec (.setlt v) s = .next { s with
      wl := v, events := s.events ++ [⟨.write, s.addr, 0x02, v, 0xFFFF⟩], res := some ⟨0, 0x0000, false, 0⟩ }) ∧
  (∀ (s : State) (v : Word), s.bound = true → s.env.answers = true → s.env.terr ≠ 0 →
    exec (.setht v) s = .next { s with
      wh := Config.junk s.draws, draws := s.draws + 1
      events := s.events ++ [⟨.write, s.addr, 0x01, v, 0xFFFF⟩], res := some ⟨s.env.terr, 0x0000, false, 0⟩ } ∧
    exec (.setlt v) s = .next { s with
      wl := Config.junk s.draws, draws := s.draws + 1
      events := s.events ++ [⟨.write, s.addr, 0x02, v, 0xFFFF⟩], res := some ⟨s.env.terr, 0x0000, false, 0⟩ })

/-- SETCONFIG merges `ACC16` into CONF and consumes it whatever the verdict; a bad one leaves the free value of the next draw in CONF. While
Unbound it faults (41_driver.md section 4; free value: log 4). -/
def Obligations.SetconfigCommitsAndConsumes : Prop :=
  (∀ (rsv sh : BitVec 4) (b a : Word), decode (c48 0x25 rsv sh b a) = .ok .setconfig) ∧
  (∀ s : State, s.bound = false → exec .setconfig s = .fault (.notBound 0x25)) ∧
  (∀ s : State, s.bound = true → s.env.answers = true → s.env.terr = 0 →
    exec .setconfig s = .next { s with
      conf := (s.conf &&& ~~~s.acc16.mask) ||| (s.acc16.value &&& s.acc16.mask), acc16 := ⟨0x0000, 0x0000⟩
      events := s.events ++ [⟨if s.acc16.mask = 0xFFFF then .write else .rmw, s.addr, 0x00, s.acc16.value, s.acc16.mask⟩]
      res := some ⟨0, 0x0000, false, 0⟩ }) ∧
  (∀ s : State, s.bound = true → s.env.answers = true → s.env.terr ≠ 0 →
    exec .setconfig s = .next { s with
      conf := Config.junk s.draws, draws := s.draws + 1, acc16 := ⟨0x0000, 0x0000⟩
      events := s.events ++ [⟨if s.acc16.mask = 0xFFFF then .write else .rmw, s.addr, 0x00, s.acc16.value, s.acc16.mask⟩]
      res := some ⟨s.env.terr, 0x0000, false, 0⟩ })

/-- SETPSCONFIG merges `ACC8` into the low byte of PSCONF, always under an `RMW` event, and consumes it whatever the verdict; a bad one
leaves the free value of the next draw in PSCONF. While Unbound it faults (41_driver.md section 4; free value: log 4). -/
def Obligations.SetpsconfigCommitsAndConsumes : Prop :=
  (∀ (rsv sh : BitVec 4) (b a : Word), decode (c48 0x26 rsv sh b a) = .ok .setpsconfig) ∧
  (∀ s : State, s.bound = false → exec .setpsconfig s = .fault (.notBound 0x26)) ∧
  (∀ s : State, s.bound = true → s.env.answers = true → s.env.terr = 0 →
    exec .setpsconfig s = .next { s with
      psconf := s.psconf.extractLsb' 8 8 ++
        ((s.psconf.extractLsb' 0 8 &&& ~~~s.acc8.mask) ||| (s.acc8.value &&& s.acc8.mask)), acc8 := ⟨0x00, 0x00⟩
      events := s.events ++ [⟨.rmw, s.addr, 0x03, s.acc8.value.setWidth 16, s.acc8.mask.setWidth 16⟩]
      res := some ⟨0, 0x0000, false, 0⟩ }) ∧
  (∀ s : State, s.bound = true → s.env.answers = true → s.env.terr ≠ 0 →
    exec .setpsconfig s = .next { s with
      psconf := Config.junk s.draws, draws := s.draws + 1, acc8 := ⟨0x00, 0x00⟩
      events := s.events ++ [⟨.rmw, s.addr, 0x03, s.acc8.value.setWidth 16, s.acc8.mask.setWidth 16⟩]
      res := some ⟨s.env.terr, 0x0000, false, 0⟩ })

/-- GETCH: the sensor's word of the channel, a free value beside a bad verdict, or code 8 with a free value and no event for one of the 254
other selectors; no state changes but the model's count of draws (41_driver.md section 5; free values and their count: log 4). -/
def Obligations.ChannelReads : Prop :=
  (∀ (rsv sh : BitVec 4) (b a : Word), decode (c48 0x27 rsv sh b a) = .ok (.getch (a.extractLsb' 0 8))) ∧
  (∀ (s : State) (ch : Byte), s.bound = false → exec (.getch ch) s = .fault (.notBound 0x27)) ∧
  (∀ s : State, s.bound = true → s.env.answers = true → s.env.terr = 0 →
    exec (.getch 0x04) s = .next { s with
      events := s.events ++ [⟨.read, s.addr, 0x04, 0, 0⟩], res := some ⟨0, s.env.white, false, 0⟩ } ∧
    exec (.getch 0x05) s = .next { s with
      events := s.events ++ [⟨.read, s.addr, 0x05, 0, 0⟩], res := some ⟨0, s.env.als, false, 0⟩ }) ∧
  (∀ s : State, s.bound = true → s.env.answers = true → s.env.terr ≠ 0 →
    exec (.getch 0x04) s = .next { s with
      draws := s.draws + 1, events := s.events ++ [⟨.read, s.addr, 0x04, 0, 0⟩]
      res := some ⟨s.env.terr, Config.junk s.draws, false, 0⟩ } ∧
    exec (.getch 0x05) s = .next { s with
      draws := s.draws + 1, events := s.events ++ [⟨.read, s.addr, 0x05, 0, 0⟩]
      res := some ⟨s.env.terr, Config.junk s.draws, false, 0⟩ }) ∧
  (∀ (s : State) (ch : Byte), s.bound = true → ch ≠ 0x04 → ch ≠ 0x05 →
    exec (.getch ch) s = .next { s with draws := s.draws + 1, res := some ⟨8, Config.junk s.draws, false, 0⟩ }) ∧
  ((List.range 256).filter (fun n => decide (BitVec.ofNat 8 n ≠ 0x04#8) && decide (BitVec.ofNat 8 n ≠ 0x05#8))).length = 254

/-- GETINTEVT: the interrupt-status word as the sensor drives it, the high-threshold event its bit 14 and the low-threshold event its
bit 15; a free value beside a bad verdict (41_driver.md section 5; free value and its count: log 4). -/
def Obligations.InterruptEventRead : Prop :=
  (∀ (rsv sh : BitVec 4) (b a : Word), decode (c48 0x28 rsv sh b a) = .ok .getintevt) ∧
  (∀ s : State, s.bound = false → exec .getintevt s = .fault (.notBound 0x28)) ∧
  (∀ s : State, s.bound = true → s.env.answers = true → s.env.terr = 0 →
    exec .getintevt s = .next { s with
      events := s.events ++ [⟨.read, s.addr, 0x06, 0, 0⟩], res := some ⟨0, s.env.intstat, false, 0⟩ }) ∧
  (∀ s : State, s.bound = true → s.env.answers = true → s.env.terr ≠ 0 →
    exec .getintevt s = .next { s with
      draws := s.draws + 1, events := s.events ++ [⟨.read, s.addr, 0x06, 0, 0⟩]
      res := some ⟨s.env.terr, Config.junk s.draws, false, 0⟩ }) ∧
  (∀ v : Word, intThHigh v = (v >>> 14).getLsbD 0 ∧ intThLow v = decide (0x8000 ≤ v.toNat))

/-- The checks of one command run in R147's order and the first that fires ends it: the opcode, the Bound state, the selector, the
transaction (60_exceptions.md R147). -/
def Obligations.ChecksRunInOrder : Prop :=
  (∀ w : CmdWord, reservedOp (opField w) = true → decodeCommand w = .error (.illegalCommand (opField w))) ∧
  (∀ (i : Instr) (s : State), i.needsBound = true → s.bound = false → exec i s = .fault (.notBound i.mnemonic.op)) ∧
  (∀ (s : State) (ch : Byte), s.bound = true → ch ≠ 0x04 → ch ≠ 0x05 →
    ∃ t r, exec (.getch ch) s = .next t ∧ t.res = some r ∧ r.err = 8 ∧ t.events = s.events ∧ t.waiting = s.waiting) ∧
  (∀ (i : Instr) (s : State), (i.needsBound = true ∧ s.bound = true ∨ ∃ address, i = .beginBind address true) →
    (∀ ch, i = .getch ch → ch = 0x04 ∨ ch = 0x05) → s.env.answers = true →
    ∃ t r, exec i s = .next t ∧ t.res = some r ∧ r.err = s.env.terr ∧ ∃ e, t.events = s.events ++ [e])

/-! ### Rules of the whole block -/

/-- A command that completes reports the verdict of its transaction unchanged; without a transaction it reports success, or code 8, and
code 8 so only from GETCH with a selector that names no channel (60_exceptions.md section 1). -/
def Obligations.ResultCodeIsVerdictSuccessOrEight : Prop :=
  ∀ (i : Instr) (s t : State) (r : Results), exec i s = .next t → t.res = some r →
    r.fault = 0 ∧
    ((t.events = s.events ∧ r.err = 0) ∨
     (t.events = s.events ∧ r.err = 8 ∧ ∃ ch, i = .getch ch ∧ ch ≠ 0x04 ∧ ch ≠ 0x05) ∨
     ((∃ e, t.events = s.events ++ [e]) ∧ r.err = s.env.terr))

/-- Setting all five fields of CONF and committing: the mask is 0x1BF3, the event an `RMW`, the six reserved bits keep their old values and
each field holds its code (90_conflicts.md C2; 41_driver.md section 4; 95_test_vectors.md P2). -/
def Obligations.FiveFieldsCommitKeepsReservedBits : Prop :=
  ∀ (s : State) (g t p n d : Word), s.bound = true → s.env.answers = true → s.env.terr = 0 → s.acc16 = ⟨0, 0⟩ →
    ∃ s1 s2 s3 s4 s5 u,
      exec (.setgain g) s = .next s1 ∧ exec (.setit t) s1 = .next s2 ∧ exec (.setpers p) s2 = .next s3 ∧
      exec (.setint n) s3 = .next s4 ∧ exec (.setsd d) s4 = .next s5 ∧ exec .setconfig s5 = .next u ∧
      s5.acc16.mask = 0x1BF3 ∧ u.events = s.events ++ [⟨.rmw, s.addr, 0x00, s5.acc16.value, 0x1BF3⟩] ∧
      u.conf &&& 0xE40C = s.conf &&& 0xE40C ∧ u.gainOut = g.setWidth 2 ∧ u.itOut = t.setWidth 4 ∧ u.persOut = p.setWidth 2 ∧
      u.intEnOut = n.getLsbD 0 ∧ u.sdOut = d.getLsbD 0 ∧ u.acc16 = ⟨0, 0⟩

/-- After a failed commit only a full-mask commit makes CONF known again, whatever value the failure left; a partial one keeps the
unknown bits outside its mask (70_reset_and_hazards.md section 3; 95_test_vectors.md P3). -/
def Obligations.FullCommitRestoresAfterFailure : Prop :=
  ∀ (s : State) (v m : Word) (e : Env), s.bound = true → s.env.answers = true → s.env.terr ≠ 0 → e.answers = true → e.terr = 0 →
    ∃ t, exec .setconfig s = .next t ∧
      (∃ x y, exec (.mld16 v 0xFFFF) { t with env := e } = .next x ∧ exec .setconfig x = .next y ∧ y.conf = v ∧
        y.events = t.events ++ [⟨.write, s.addr, 0x00, v, 0xFFFF⟩]) ∧
      (∃ x y, exec (.mld16 v m) { t with env := e } = .next x ∧ exec .setconfig x = .next y ∧
        y.conf &&& m = v &&& m ∧ y.conf &&& ~~~m = Config.junk s.draws &&& ~~~m)

/-- The power-saving fields, set and committed, appear on their outputs; the other bits of PSCONF stay
(10_state.md section 6; 41_driver.md section 4). -/
def Obligations.PowerSavingFieldsAppearOnOutputs : Prop :=
  ∀ (s : State) (p n : Byte), s.bound = true → s.env.answers = true → s.env.terr = 0 → s.acc8 = ⟨0, 0⟩ →
    ∃ s1 s2 u, exec (.setpsm p) s = .next s1 ∧ exec (.setpsmen n) s1 = .next s2 ∧ exec .setpsconfig s2 = .next u ∧
      u.psmOut = p.setWidth 2 ∧ u.psmEnOut = n.getLsbD 0 ∧ u.psconfOut &&& 0xFFF8 = s.psconf &&& 0xFFF8 ∧ u.acc8 = ⟨0, 0⟩

/-- Value bits outside the mask never reach a register: an accumulator and its masked value commit to the same CONF and PSCONF
(10_state.md section 1). With a bad verdict both registers hold the free value of one draw: equal in the model only, log 4. -/
def Obligations.CommitIgnoresBitsOutsideMask : Prop :=
  ∀ s : State, s.bound = true → s.env.answers = true →
    (∃ t u, exec .setconfig s = .next t ∧
      exec .setconfig { s with acc16 := ⟨s.acc16.value &&& s.acc16.mask, s.acc16.mask⟩ } = .next u ∧ u.conf = t.conf) ∧
    (∃ t u, exec .setpsconfig s = .next t ∧
      exec .setpsconfig { s with acc8 := ⟨s.acc8.value &&& s.acc8.mask, s.acc8.mask⟩ } = .next u ∧ u.psconf = t.psconf)

/-- Which commands may change each element of the state; no command changes the pins or the stream (10_state.md sections 1 and 4;
20_memory.md section 1). -/
def Obligations.OnlyNamedCommandsChangeEachElement : Prop :=
  ∀ (i : Instr) (s t : State), exec i s = .next t →
    (t.acc16 = s.acc16 ∨ i.mnemonic ∈
      [Mnemonic.mclr16, .mld16, .msetf16, .setgain, .setit, .setpers, .setint, .setsd, .setconfig]) ∧
    (t.acc8 = s.acc8 ∨ i.mnemonic ∈ [Mnemonic.mclr8, .mld8, .msetf8, .setpsm, .setpsmen, .setpsconfig]) ∧
    (t.bound = s.bound ∨ (i.mnemonic = .beginBind ∧ t.bound = true)) ∧
    (t.addr = s.addr ∨ i.mnemonic = .beginBind) ∧
    (t.conf = s.conf ∨ i.mnemonic ∈ [Mnemonic.setconfig, .wakeup, .shutdown] ∨ ∃ address, i = .beginBind address true) ∧
    (t.wh = s.wh ∨ i.mnemonic = .setht) ∧ (t.wl = s.wl ∨ i.mnemonic = .setlt) ∧
    (t.psconf = s.psconf ∨ i.mnemonic = .setpsconfig) ∧
    (t.events = s.events ∨ i.isComposer = false) ∧ t.env = s.env ∧ t.inputs = s.inputs

/-- Bits [15:8] of PSCONF are changed by no command but a SETPSCONFIG that is answered with a bad verdict, and by no step but one that runs
such a command or shows `rst` (10_state.md section 4; 20_memory.md section 2; 70_reset_and_hazards.md sections 1 and 3). -/
def Obligations.PsconfHighByteIsKept : Prop :=
  (∀ (i : Instr) (s t : State), exec i s = .next t →
    t.psconf.extractLsb' 8 8 = s.psconf.extractLsb' 8 8 ∨
    (i = .setpsconfig ∧ s.env.answers = true ∧ s.env.terr ≠ 0)) ∧
  (∀ s t : State, step s = .next t →
    t.psconf.extractLsb' 8 8 = s.psconf.extractLsb' 8 8 ∨ (∃ rest, s.inputs = .rst :: rest) ∨
    ∃ w env rest, s.inputs = .command w env :: rest ∧ s.waiting = false ∧ decode w = .ok .setpsconfig ∧
      env.answers = true ∧ env.terr ≠ 0)

/-- The event history only grows, by at most one event a step, in command order; an event is emitted only by a command of a block that is
Bound, or by BEGIN (20_memory.md section 5). -/
def Obligations.AtMostOneEventPerStep : Prop :=
  ∀ s t : State, step s = .next t →
    t.events = s.events ∨
    ∃ e w env rest i, t.events = s.events ++ [e] ∧ s.inputs = .command w env :: rest ∧ s.waiting = false ∧
      decode w = .ok i ∧ i.isComposer = false ∧ (s.bound = true ∨ i.mnemonic = .beginBind)

/-- Bound is entered only by BEGIN and left only by `rst`, over every step from every state (10_state.md section 4;
60_exceptions.md section 6). -/
def Obligations.BoundIsEnteredByBeginAndLeftByRst : Prop :=
  ∀ s t : State, step s = .next t →
    (s.bound = true → t.bound = true ∨ ∃ rest, s.inputs = .rst :: rest) ∧
    (s.bound = false → t.bound = true →
      ∃ w env rest address wakeUp, s.inputs = .command w env :: rest ∧ decode w = .ok (.beginBind address wakeUp))

/-- The invariant holds after reset. -/
def Obligations.InvariantHoldsAtReset : Prop := State.reset.Inv

/-- Every step keeps the invariant: events stay legal (reads of the three read-only registers, full writes of CONF, WH and WL, partial
writes of CONF and of the low byte of PSCONF), results stay legal, and a waiting block delivers no result (20_memory.md sections 1 and 4;
30_encoding.md section 5; the waiting part is the model's, log 8). -/
def Obligations.StepKeepsInvariant : Prop :=
  ∀ s t : State, s.Inv → step s = .next t → t.Inv

/-- No readback: over a run of any length, nothing but the stored registers themselves depends on their contents, so neither results nor
events nor any other state reveals them (70_reset_and_hazards.md section 3). Both runs draw the same free values: the results of a fault, a
bad read and code 8 agree because the model's draws do, log 4. -/
def Obligations.NoRunReadsStoredRegisters : Prop :=
  ∀ (k : Nat) (s t : State) (conf wh wl psconf : Word), Host.Core.run Sys2Proof.core k s = .next t →
    ∃ u : State, Host.Core.run Sys2Proof.core k (s.withStored conf wh wl psconf) = .next u ∧ u.sameButStored t

/-- ADDR before BEGIN reaches nothing: while Unbound a command does the same whatever stands in ADDR, and the output shows no value of it
(10_state.md section 7; that a value stands there is the model's choice, log 6; after a bad verdict of BEGIN's wake-up write both CONFs are
the free value of one draw, equal in the model only, log 4). -/
def Obligations.AddrBeforeBeginReachesNothing : Prop :=
  ∀ (i : Instr) (s t : State) (address : BitVec 7), s.bound = false → exec i s = .next t →
    ∃ u, exec i { s with addr := address } = .next u ∧ u.devAddrOut = t.devAddrOut ∧ { u with addr := t.addr } = t
end

