-- ==== Sys2Proof/Laws/Bits.lean ====
section
/-! SUPPORT. The operand fields of 30_encoding.md R61 as masks: a field narrower than its place, cut out and widened again. -/

namespace Sys2Proof

@[simp] theorem extractLsb'_setWidth_7 (v : BitVec 7) : (v.setWidth 16).extractLsb' 0 7 = v := by
  revert v
  decide

@[simp] theorem getLsbD_setWidth_ofBool (v : Bool) : ((BitVec.ofBool v).setWidth 16).getLsbD 0 = v := by
  revert v
  decide

/-- Bits [7:0] of a field. -/
theorem and_00FF (v : Word) : v &&& 0x00FF = (lowByte v).setWidth 16 := by
  apply BitVec.eq_of_getLsbD_eq
  intro i hi
  have : ∀ i < 16, (0x00FF#16).getLsbD i = decide (i < 8) := by decide
  rw [BitVec.getLsbD_and, show (0x00FF : BitVec 16) = 0x00FF#16 from rfl, this i hi]
  simp [lowByte, hi, Bool.and_comm]

/-- Bits [6:0] of a field. -/
theorem and_007F (v : Word) : v &&& 0x007F = (v.extractLsb' 0 7).setWidth 16 := by
  apply BitVec.eq_of_getLsbD_eq
  intro i hi
  have : ∀ i < 16, (0x007F#16).getLsbD i = decide (i < 7) := by decide
  rw [BitVec.getLsbD_and, show (0x007F : BitVec 16) = 0x007F#16 from rfl, this i hi]
  simp [hi, Bool.and_comm]

/-- Bit 0 of a field. -/
theorem and_0001 (v : Word) : v &&& 0x0001 = (BitVec.ofBool (v.getLsbD 0)).setWidth 16 := by
  apply BitVec.eq_of_getLsbD_eq
  intro i hi
  have : ∀ i < 16, (0x0001#16).getLsbD i = decide (i = 0) := by decide
  rw [BitVec.getLsbD_and, show (0x0001 : BitVec 16) = 0x0001#16 from rfl, this i hi]
  rcases i with _ | i
  · cases v.getLsbD 0 <;> decide
  · simp [hi]

end Sys2Proof
end

