-- ==== Sys2Proof/Laws/Decode.lean ====
section
/-! SUPPORT. The fields of a command word, and the row an opcode selects (30_encoding.md R60, R63). -/

namespace Sys2Proof

variable (op : Byte) (rsv sh : BitVec 4) (b a : Word)

/-- A command word bit by bit (30_encoding.md R60). -/
theorem getLsbD_c48 (i : Nat) :
    (c48 op rsv sh b a).getLsbD i =
      if i < 16 then a.getLsbD i else if i < 32 then b.getLsbD (i - 16) else if i < 36 then sh.getLsbD (i - 32)
      else if i < 40 then rsv.getLsbD (i - 36) else op.getLsbD (i - 40) := by
  have h : ((op ++ rsv ++ sh ++ b ++ a : BitVec (8 + 4 + 4 + 16 + 16)).getLsbD i) =
      if i < 16 then a.getLsbD i else if i - 16 < 16 then b.getLsbD (i - 16)
      else if i - 16 - 16 < 4 then sh.getLsbD (i - 16 - 16) else if i - 16 - 16 - 4 < 4 then rsv.getLsbD (i - 16 - 16 - 4)
      else op.getLsbD (i - 16 - 16 - 4 - 4) := by
    simp only [BitVec.getLsbD_append]
  simp only [show i - 16 - 16 = i - 32 by omega, show i - 32 - 4 = i - 36 by omega, show i - 36 - 4 = i - 40 by omega] at h
  refine (show _ = _ from h).trans ?_
  split_ifs <;> first | rfl | omega

@[simp] theorem opField_c48 : opField (c48 op rsv sh b a) = op := by
  apply BitVec.eq_of_getLsbD_eq
  intro i hi
  simp [opField, getLsbD_c48, hi, show ¬ 40 + i < 16 by omega, show ¬ 40 + i < 32 by omega, show ¬ 40 + i < 36 by omega]

@[simp] theorem shField_c48 : shField (c48 op rsv sh b a) = sh := by
  apply BitVec.eq_of_getLsbD_eq
  intro i hi
  simp [shField, getLsbD_c48, hi, show ¬ 32 + i < 16 by omega, show 32 + i < 36 by omega]

@[simp] theorem rsvField_c48 : rsvField (c48 op rsv sh b a) = rsv := by
  apply BitVec.eq_of_getLsbD_eq
  intro i hi
  simp [rsvField, getLsbD_c48, hi, show ¬ 36 + i < 16 by omega, show ¬ 36 + i < 32 by omega, show 36 + i < 40 by omega]

@[simp] theorem bField_c48 : bField (c48 op rsv sh b a) = b := by
  apply BitVec.eq_of_getLsbD_eq
  intro i hi
  simp [bField, getLsbD_c48, hi, show 16 + i < 32 by omega]

@[simp] theorem aField_c48 : aField (c48 op rsv sh b a) = a := by
  apply BitVec.eq_of_getLsbD_eq
  intro i hi
  simp [aField, getLsbD_c48, hi]

/-- Every word is made of its fields. -/
theorem c48_fields (w : CmdWord) : c48 (opField w) (rsvField w) (shField w) (bField w) (aField w) = w := by
  apply BitVec.eq_of_getLsbD_eq
  intro i hi
  rw [getLsbD_c48]
  simp only [opField, rsvField, shField, bField, aField, BitVec.getLsbD_extractLsb']
  split_ifs <;> rw [decide_eq_true (by omega), Bool.true_and] <;> congr 1 <;> omega

@[simp] theorem fieldsOf_c48 : fieldsOf (c48 op rsv sh b a) = { a := a, b := b, sh := sh } := by
  simp [fieldsOf]

/-- Masking a word masks each of its fields. -/
theorem c48_and (op' : Byte) (rsv' sh' : BitVec 4) (b' a' : Word) :
    c48 op rsv sh b a &&& c48 op' rsv' sh' b' a' = c48 (op &&& op') (rsv &&& rsv') (sh &&& sh') (b &&& b') (a &&& a') := by
  apply BitVec.eq_of_getLsbD_eq
  intro i hi
  simp only [BitVec.getLsbD_and, getLsbD_c48]
  split_ifs <;> rfl

/-- A full mask changes nothing of a field. -/
@[simp] theorem and_FFFF (v : Word) : v &&& 0xFFFF#16 = v := BitVec.and_allOnes

/-- A full mask changes nothing of a shift amount. -/
@[simp] theorem and_F (v : BitVec 4) : v &&& 0xF#4 = v := BitVec.and_allOnes

/-- Masking an 8-bit operand in its field to the low byte changes nothing. -/
@[simp] theorem setWidth_and_00FF (v : Byte) : v.setWidth 16 &&& 0x00FF#16 = v.setWidth 16 := by
  revert v
  decide

/-- Masking a 7-bit address in its field to seven bits changes nothing. -/
@[simp] theorem setWidth_and_007F (v : BitVec 7) : v.setWidth 16 &&& 0x007F#16 = v.setWidth 16 := by
  revert v
  decide

/-- Masking a flag in its field to bit 0 changes nothing. -/
@[simp] theorem ofBool_and_0001 (v : Bool) : (BitVec.ofBool v).setWidth 16 &&& 0x0001#16 = (BitVec.ofBool v).setWidth 16 := by
  revert v
  decide

/-- The low byte of a zero-extended byte is the byte. -/
@[simp] theorem lowByte_setWidth (v : Byte) : lowByte (v.setWidth 16) = v := by
  revert v
  decide

/-- Every mnemonic's opcode selects it: no two rows overlap (30_encoding.md R63). -/
@[simp] theorem ofOp_op (m : Mnemonic) : Mnemonic.ofOp m.op = some m := by
  cases m <;> rfl

/-- An opcode selects a row only if it is the row's own. -/
theorem op_of_ofOp {op : Byte} {m : Mnemonic} (h : Mnemonic.ofOp op = some m) : m.op = op := by
  simpa using List.find?_some h

/-- Decoding a word written out by its fields. -/
theorem decode_c48 {m : Mnemonic} (h : m.op = op) :
    decode (c48 op rsv sh b a) = .ok (m.instr { a := a, b := b, sh := sh }) := by
  subst h
  simp [decode]

/-- Everything decoding can answer. -/
theorem decode_cases (w : CmdWord) :
    (∃ m, Mnemonic.ofOp (opField w) = some m ∧ decode w = .ok (m.instr (fieldsOf w))) ∨
    (Mnemonic.ofOp (opField w) = none ∧ decode w = .error (.reservedOp (opField w))) := by
  unfold decode
  cases Mnemonic.ofOp (opField w) <;> simp

/-- Operand assembly keeps the mnemonic. -/
@[simp] theorem mnemonic_instr (m : Mnemonic) (f : Fields) : (m.instr f).mnemonic = m := by
  cases m <;> rfl

end Sys2Proof
end

