-- ==== Sys2Proof/Laws/State.lean ====
section
/-! SUPPORT. What each state update of Machine/Ops.lean does to each field: one lemma a field, so that no proof unfolds a record update. -/

namespace Sys2Proof.Machine

variable (s : State)

@[simp] theorem setAcc16_acc16 (r : Mrv 16) : (s.setAcc16 r).acc16 = r := rfl
@[simp] theorem setAcc16_acc8 (r : Mrv 16) : (s.setAcc16 r).acc8 = s.acc8 := rfl
@[simp] theorem setAcc16_bound (r : Mrv 16) : (s.setAcc16 r).bound = s.bound := rfl
@[simp] theorem setAcc16_addr (r : Mrv 16) : (s.setAcc16 r).addr = s.addr := rfl
@[simp] theorem setAcc16_conf (r : Mrv 16) : (s.setAcc16 r).conf = s.conf := rfl
@[simp] theorem setAcc16_wh (r : Mrv 16) : (s.setAcc16 r).wh = s.wh := rfl
@[simp] theorem setAcc16_wl (r : Mrv 16) : (s.setAcc16 r).wl = s.wl := rfl
@[simp] theorem setAcc16_psconf (r : Mrv 16) : (s.setAcc16 r).psconf = s.psconf := rfl
@[simp] theorem setAcc16_env (r : Mrv 16) : (s.setAcc16 r).env = s.env := rfl
@[simp] theorem setAcc16_waiting (r : Mrv 16) : (s.setAcc16 r).waiting = s.waiting := rfl
@[simp] theorem setAcc16_res (r : Mrv 16) : (s.setAcc16 r).res = s.res := rfl
@[simp] theorem setAcc16_inputs (r : Mrv 16) : (s.setAcc16 r).inputs = s.inputs := rfl
@[simp] theorem setAcc16_events (r : Mrv 16) : (s.setAcc16 r).events = s.events := rfl
@[simp] theorem setAcc16_draws (r : Mrv 16) : (s.setAcc16 r).draws = s.draws := rfl

@[simp] theorem setAcc8_acc16 (r : Mrv 8) : (s.setAcc8 r).acc16 = s.acc16 := rfl
@[simp] theorem setAcc8_acc8 (r : Mrv 8) : (s.setAcc8 r).acc8 = r := rfl
@[simp] theorem setAcc8_bound (r : Mrv 8) : (s.setAcc8 r).bound = s.bound := rfl
@[simp] theorem setAcc8_addr (r : Mrv 8) : (s.setAcc8 r).addr = s.addr := rfl
@[simp] theorem setAcc8_conf (r : Mrv 8) : (s.setAcc8 r).conf = s.conf := rfl
@[simp] theorem setAcc8_wh (r : Mrv 8) : (s.setAcc8 r).wh = s.wh := rfl
@[simp] theorem setAcc8_wl (r : Mrv 8) : (s.setAcc8 r).wl = s.wl := rfl
@[simp] theorem setAcc8_psconf (r : Mrv 8) : (s.setAcc8 r).psconf = s.psconf := rfl
@[simp] theorem setAcc8_env (r : Mrv 8) : (s.setAcc8 r).env = s.env := rfl
@[simp] theorem setAcc8_waiting (r : Mrv 8) : (s.setAcc8 r).waiting = s.waiting := rfl
@[simp] theorem setAcc8_res (r : Mrv 8) : (s.setAcc8 r).res = s.res := rfl
@[simp] theorem setAcc8_inputs (r : Mrv 8) : (s.setAcc8 r).inputs = s.inputs := rfl
@[simp] theorem setAcc8_events (r : Mrv 8) : (s.setAcc8 r).events = s.events := rfl
@[simp] theorem setAcc8_draws (r : Mrv 8) : (s.setAcc8 r).draws = s.draws := rfl

@[simp] theorem bind_acc16 (a : BitVec 7) : (s.bind a).acc16 = s.acc16 := rfl
@[simp] theorem bind_acc8 (a : BitVec 7) : (s.bind a).acc8 = s.acc8 := rfl
@[simp] theorem bind_bound (a : BitVec 7) : (s.bind a).bound = true := rfl
@[simp] theorem bind_addr (a : BitVec 7) : (s.bind a).addr = a := rfl
@[simp] theorem bind_conf (a : BitVec 7) : (s.bind a).conf = s.conf := rfl
@[simp] theorem bind_wh (a : BitVec 7) : (s.bind a).wh = s.wh := rfl
@[simp] theorem bind_wl (a : BitVec 7) : (s.bind a).wl = s.wl := rfl
@[simp] theorem bind_psconf (a : BitVec 7) : (s.bind a).psconf = s.psconf := rfl
@[simp] theorem bind_env (a : BitVec 7) : (s.bind a).env = s.env := rfl
@[simp] theorem bind_waiting (a : BitVec 7) : (s.bind a).waiting = s.waiting := rfl
@[simp] theorem bind_res (a : BitVec 7) : (s.bind a).res = s.res := rfl
@[simp] theorem bind_inputs (a : BitVec 7) : (s.bind a).inputs = s.inputs := rfl
@[simp] theorem bind_events (a : BitVec 7) : (s.bind a).events = s.events := rfl
@[simp] theorem bind_draws (a : BitVec 7) : (s.bind a).draws = s.draws := rfl

@[simp] theorem drawn_acc16 : (s.drawn).acc16 = s.acc16 := rfl
@[simp] theorem drawn_acc8 : (s.drawn).acc8 = s.acc8 := rfl
@[simp] theorem drawn_bound : (s.drawn).bound = s.bound := rfl
@[simp] theorem drawn_addr : (s.drawn).addr = s.addr := rfl
@[simp] theorem drawn_conf : (s.drawn).conf = s.conf := rfl
@[simp] theorem drawn_wh : (s.drawn).wh = s.wh := rfl
@[simp] theorem drawn_wl : (s.drawn).wl = s.wl := rfl
@[simp] theorem drawn_psconf : (s.drawn).psconf = s.psconf := rfl
@[simp] theorem drawn_env : (s.drawn).env = s.env := rfl
@[simp] theorem drawn_waiting : (s.drawn).waiting = s.waiting := rfl
@[simp] theorem drawn_res : (s.drawn).res = s.res := rfl
@[simp] theorem drawn_inputs : (s.drawn).inputs = s.inputs := rfl
@[simp] theorem drawn_events : (s.drawn).events = s.events := rfl
@[simp] theorem drawn_draws : (s.drawn).draws = s.draws + 1 := rfl

@[simp] theorem finish_acc16 (e : Byte) (d : Word) (p : Bool) : (s.finish e d p).acc16 = s.acc16 := rfl
@[simp] theorem finish_acc8 (e : Byte) (d : Word) (p : Bool) : (s.finish e d p).acc8 = s.acc8 := rfl
@[simp] theorem finish_bound (e : Byte) (d : Word) (p : Bool) : (s.finish e d p).bound = s.bound := rfl
@[simp] theorem finish_addr (e : Byte) (d : Word) (p : Bool) : (s.finish e d p).addr = s.addr := rfl
@[simp] theorem finish_conf (e : Byte) (d : Word) (p : Bool) : (s.finish e d p).conf = s.conf := rfl
@[simp] theorem finish_wh (e : Byte) (d : Word) (p : Bool) : (s.finish e d p).wh = s.wh := rfl
@[simp] theorem finish_wl (e : Byte) (d : Word) (p : Bool) : (s.finish e d p).wl = s.wl := rfl
@[simp] theorem finish_psconf (e : Byte) (d : Word) (p : Bool) : (s.finish e d p).psconf = s.psconf := rfl
@[simp] theorem finish_env (e : Byte) (d : Word) (p : Bool) : (s.finish e d p).env = s.env := rfl
@[simp] theorem finish_waiting (e : Byte) (d : Word) (p : Bool) : (s.finish e d p).waiting = s.waiting := rfl
@[simp] theorem finish_res (e : Byte) (d : Word) (p : Bool) : (s.finish e d p).res = some { err := e, data := d, present := p, fault := 0 } := rfl
@[simp] theorem finish_inputs (e : Byte) (d : Word) (p : Bool) : (s.finish e d p).inputs = s.inputs := rfl
@[simp] theorem finish_events (e : Byte) (d : Word) (p : Bool) : (s.finish e d p).events = s.events := rfl
@[simp] theorem finish_draws (e : Byte) (d : Word) (p : Bool) : (s.finish e d p).draws = s.draws := rfl

@[simp] theorem done_acc16 : (s.done).acc16 = s.acc16 := rfl
@[simp] theorem done_acc8 : (s.done).acc8 = s.acc8 := rfl
@[simp] theorem done_bound : (s.done).bound = s.bound := rfl
@[simp] theorem done_addr : (s.done).addr = s.addr := rfl
@[simp] theorem done_conf : (s.done).conf = s.conf := rfl
@[simp] theorem done_wh : (s.done).wh = s.wh := rfl
@[simp] theorem done_wl : (s.done).wl = s.wl := rfl
@[simp] theorem done_psconf : (s.done).psconf = s.psconf := rfl
@[simp] theorem done_env : (s.done).env = s.env := rfl
@[simp] theorem done_waiting : (s.done).waiting = s.waiting := rfl
@[simp] theorem done_res : (s.done).res = some { err := 0, data := 0, present := false, fault := 0 } := rfl
@[simp] theorem done_inputs : (s.done).inputs = s.inputs := rfl
@[simp] theorem done_events : (s.done).events = s.events := rfl
@[simp] theorem done_draws : (s.done).draws = s.draws := rfl

@[simp] theorem emit_acc16 (e : Event) : (s.emit e).acc16 = s.acc16 := rfl
@[simp] theorem emit_acc8 (e : Event) : (s.emit e).acc8 = s.acc8 := rfl
@[simp] theorem emit_bound (e : Event) : (s.emit e).bound = s.bound := rfl
@[simp] theorem emit_addr (e : Event) : (s.emit e).addr = s.addr := rfl
@[simp] theorem emit_conf (e : Event) : (s.emit e).conf = s.conf := rfl
@[simp] theorem emit_wh (e : Event) : (s.emit e).wh = s.wh := rfl
@[simp] theorem emit_wl (e : Event) : (s.emit e).wl = s.wl := rfl
@[simp] theorem emit_psconf (e : Event) : (s.emit e).psconf = s.psconf := rfl
@[simp] theorem emit_env (e : Event) : (s.emit e).env = s.env := rfl
@[simp] theorem emit_waiting (e : Event) : (s.emit e).waiting = s.waiting := rfl
@[simp] theorem emit_res (e : Event) : (s.emit e).res = s.res := rfl
@[simp] theorem emit_inputs (e : Event) : (s.emit e).inputs = s.inputs := rfl
@[simp] theorem emit_events (e : Event) : (s.emit e).events = s.events ++ [e] := rfl
@[simp] theorem emit_draws (e : Event) : (s.emit e).draws = s.draws := rfl

@[simp] theorem await_acc16 : (s.await).acc16 = s.acc16 := rfl
@[simp] theorem await_acc8 : (s.await).acc8 = s.acc8 := rfl
@[simp] theorem await_bound : (s.await).bound = s.bound := rfl
@[simp] theorem await_addr : (s.await).addr = s.addr := rfl
@[simp] theorem await_conf : (s.await).conf = s.conf := rfl
@[simp] theorem await_wh : (s.await).wh = s.wh := rfl
@[simp] theorem await_wl : (s.await).wl = s.wl := rfl
@[simp] theorem await_psconf : (s.await).psconf = s.psconf := rfl
@[simp] theorem await_env : (s.await).env = s.env := rfl
@[simp] theorem await_waiting : (s.await).waiting = true := rfl
@[simp] theorem await_res : (s.await).res = none := rfl
@[simp] theorem await_inputs : (s.await).inputs = s.inputs := rfl
@[simp] theorem await_events : (s.await).events = s.events := rfl
@[simp] theorem await_draws : (s.await).draws = s.draws := rfl

@[simp] theorem consume_acc16 : (s.consume).acc16 = s.acc16 := rfl
@[simp] theorem consume_acc8 : (s.consume).acc8 = s.acc8 := rfl
@[simp] theorem consume_bound : (s.consume).bound = s.bound := rfl
@[simp] theorem consume_addr : (s.consume).addr = s.addr := rfl
@[simp] theorem consume_conf : (s.consume).conf = s.conf := rfl
@[simp] theorem consume_wh : (s.consume).wh = s.wh := rfl
@[simp] theorem consume_wl : (s.consume).wl = s.wl := rfl
@[simp] theorem consume_psconf : (s.consume).psconf = s.psconf := rfl
@[simp] theorem consume_env : (s.consume).env = s.env := rfl
@[simp] theorem consume_waiting : (s.consume).waiting = s.waiting := rfl
@[simp] theorem consume_res : (s.consume).res = none := rfl
@[simp] theorem consume_inputs : (s.consume).inputs = s.inputs.tail := rfl
@[simp] theorem consume_events : (s.consume).events = s.events := rfl
@[simp] theorem consume_draws : (s.consume).draws = s.draws := rfl

@[simp] theorem sample_acc16 (e : Env) : (s.sample e).acc16 = s.acc16 := rfl
@[simp] theorem sample_acc8 (e : Env) : (s.sample e).acc8 = s.acc8 := rfl
@[simp] theorem sample_bound (e : Env) : (s.sample e).bound = s.bound := rfl
@[simp] theorem sample_addr (e : Env) : (s.sample e).addr = s.addr := rfl
@[simp] theorem sample_conf (e : Env) : (s.sample e).conf = s.conf := rfl
@[simp] theorem sample_wh (e : Env) : (s.sample e).wh = s.wh := rfl
@[simp] theorem sample_wl (e : Env) : (s.sample e).wl = s.wl := rfl
@[simp] theorem sample_psconf (e : Env) : (s.sample e).psconf = s.psconf := rfl
@[simp] theorem sample_env (e : Env) : (s.sample e).env = e := rfl
@[simp] theorem sample_waiting (e : Env) : (s.sample e).waiting = s.waiting := rfl
@[simp] theorem sample_res (e : Env) : (s.sample e).res = s.res := rfl
@[simp] theorem sample_inputs (e : Env) : (s.sample e).inputs = s.inputs := rfl
@[simp] theorem sample_events (e : Env) : (s.sample e).events = s.events := rfl
@[simp] theorem sample_draws (e : Env) : (s.sample e).draws = s.draws := rfl

@[simp] theorem present_acc16 (w : CmdWord) (e : Env) : (s.present w e).acc16 = s.acc16 := rfl
@[simp] theorem present_acc8 (w : CmdWord) (e : Env) : (s.present w e).acc8 = s.acc8 := rfl
@[simp] theorem present_bound (w : CmdWord) (e : Env) : (s.present w e).bound = s.bound := rfl
@[simp] theorem present_addr (w : CmdWord) (e : Env) : (s.present w e).addr = s.addr := rfl
@[simp] theorem present_conf (w : CmdWord) (e : Env) : (s.present w e).conf = s.conf := rfl
@[simp] theorem present_wh (w : CmdWord) (e : Env) : (s.present w e).wh = s.wh := rfl
@[simp] theorem present_wl (w : CmdWord) (e : Env) : (s.present w e).wl = s.wl := rfl
@[simp] theorem present_psconf (w : CmdWord) (e : Env) : (s.present w e).psconf = s.psconf := rfl
@[simp] theorem present_env (w : CmdWord) (e : Env) : (s.present w e).env = s.env := rfl
@[simp] theorem present_waiting (w : CmdWord) (e : Env) : (s.present w e).waiting = false := rfl
@[simp] theorem present_res (w : CmdWord) (e : Env) : (s.present w e).res = s.res := rfl
@[simp] theorem present_inputs (w : CmdWord) (e : Env) : (s.present w e).inputs = .command w e :: s.inputs := rfl
@[simp] theorem present_events (w : CmdWord) (e : Env) : (s.present w e).events = s.events := rfl
@[simp] theorem present_draws (w : CmdWord) (e : Env) : (s.present w e).draws = s.draws := rfl

@[simp] theorem reportFault_acc16 (f : Fault) : (s.reportFault f).acc16 = s.acc16 := rfl
@[simp] theorem reportFault_acc8 (f : Fault) : (s.reportFault f).acc8 = s.acc8 := rfl
@[simp] theorem reportFault_bound (f : Fault) : (s.reportFault f).bound = s.bound := rfl
@[simp] theorem reportFault_addr (f : Fault) : (s.reportFault f).addr = s.addr := rfl
@[simp] theorem reportFault_conf (f : Fault) : (s.reportFault f).conf = s.conf := rfl
@[simp] theorem reportFault_wh (f : Fault) : (s.reportFault f).wh = s.wh := rfl
@[simp] theorem reportFault_wl (f : Fault) : (s.reportFault f).wl = s.wl := rfl
@[simp] theorem reportFault_psconf (f : Fault) : (s.reportFault f).psconf = s.psconf := rfl
@[simp] theorem reportFault_env (f : Fault) : (s.reportFault f).env = s.env := rfl
@[simp] theorem reportFault_waiting (f : Fault) : (s.reportFault f).waiting = s.waiting := rfl
@[simp] theorem reportFault_inputs (f : Fault) : (s.reportFault f).inputs = s.inputs := rfl
@[simp] theorem reportFault_events (f : Fault) : (s.reportFault f).events = s.events := rfl
@[simp] theorem reportFault_draws (f : Fault) : (s.reportFault f).draws = s.draws + 3 := rfl

/-- A reported fault shows its code; the other results are free values. -/
theorem reportFault_res (f : Fault) : ∃ r, (s.reportFault f).res = some r ∧ r.fault = f.code := ⟨_, rfl, rfl⟩

@[simp] theorem resetBlock_acc16 : s.resetBlock.acc16 = ⟨0, 0⟩ := rfl
@[simp] theorem resetBlock_acc8 : s.resetBlock.acc8 = ⟨0, 0⟩ := rfl
@[simp] theorem resetBlock_bound : s.resetBlock.bound = false := rfl
@[simp] theorem resetBlock_conf : s.resetBlock.conf = Config.rst.conf := rfl
@[simp] theorem resetBlock_wh : s.resetBlock.wh = Config.rst.wh := rfl
@[simp] theorem resetBlock_wl : s.resetBlock.wl = Config.rst.wl := rfl
@[simp] theorem resetBlock_psconf : s.resetBlock.psconf = Config.rst.psconf := rfl
@[simp] theorem resetBlock_env : s.resetBlock.env = s.env := rfl
@[simp] theorem resetBlock_waiting : s.resetBlock.waiting = false := rfl
@[simp] theorem resetBlock_res : s.resetBlock.res = none := rfl
@[simp] theorem resetBlock_inputs : s.resetBlock.inputs = s.inputs := rfl
@[simp] theorem resetBlock_events : s.resetBlock.events = s.events := rfl
@[simp] theorem resetBlock_draws : s.resetBlock.draws = s.draws + 1 := rfl

@[simp] theorem setStored_acc16 (r : StoredReg) (v : Word) : (s.setStored r v).acc16 = s.acc16 := by cases r <;> rfl
@[simp] theorem setStored_acc8 (r : StoredReg) (v : Word) : (s.setStored r v).acc8 = s.acc8 := by cases r <;> rfl
@[simp] theorem setStored_bound (r : StoredReg) (v : Word) : (s.setStored r v).bound = s.bound := by cases r <;> rfl
@[simp] theorem setStored_addr (r : StoredReg) (v : Word) : (s.setStored r v).addr = s.addr := by cases r <;> rfl
@[simp] theorem setStored_env (r : StoredReg) (v : Word) : (s.setStored r v).env = s.env := by cases r <;> rfl
@[simp] theorem setStored_waiting (r : StoredReg) (v : Word) : (s.setStored r v).waiting = s.waiting := by cases r <;> rfl
@[simp] theorem setStored_res (r : StoredReg) (v : Word) : (s.setStored r v).res = s.res := by cases r <;> rfl
@[simp] theorem setStored_inputs (r : StoredReg) (v : Word) : (s.setStored r v).inputs = s.inputs := by cases r <;> rfl
@[simp] theorem setStored_events (r : StoredReg) (v : Word) : (s.setStored r v).events = s.events := by cases r <;> rfl
@[simp] theorem setStored_draws (r : StoredReg) (v : Word) : (s.setStored r v).draws = s.draws := by cases r <;> rfl
@[simp] theorem setStored_conf (r : StoredReg) (v : Word) : (s.setStored r v).conf = if r = .conf then v else s.conf := by
  cases r <;> rfl
@[simp] theorem setStored_wh (r : StoredReg) (v : Word) : (s.setStored r v).wh = if r = .wh then v else s.wh := by
  cases r <;> rfl
@[simp] theorem setStored_wl (r : StoredReg) (v : Word) : (s.setStored r v).wl = if r = .wl then v else s.wl := by
  cases r <;> rfl
@[simp] theorem setStored_psconf (r : StoredReg) (v : Word) : (s.setStored r v).psconf = if r = .psconf then v else s.psconf := by
  cases r <;> rfl

@[simp] theorem mergeStored_acc16 (r : StoredReg) (v m : Word) : (s.mergeStored r v m).acc16 = s.acc16 := by
  simp [State.mergeStored]
@[simp] theorem mergeStored_acc8 (r : StoredReg) (v m : Word) : (s.mergeStored r v m).acc8 = s.acc8 := by
  simp [State.mergeStored]
@[simp] theorem mergeStored_bound (r : StoredReg) (v m : Word) : (s.mergeStored r v m).bound = s.bound := by
  simp [State.mergeStored]
@[simp] theorem mergeStored_addr (r : StoredReg) (v m : Word) : (s.mergeStored r v m).addr = s.addr := by
  simp [State.mergeStored]
@[simp] theorem mergeStored_env (r : StoredReg) (v m : Word) : (s.mergeStored r v m).env = s.env := by
  simp [State.mergeStored]
@[simp] theorem mergeStored_waiting (r : StoredReg) (v m : Word) : (s.mergeStored r v m).waiting = s.waiting := by
  simp [State.mergeStored]
@[simp] theorem mergeStored_res (r : StoredReg) (v m : Word) : (s.mergeStored r v m).res = s.res := by
  simp [State.mergeStored]
@[simp] theorem mergeStored_inputs (r : StoredReg) (v m : Word) : (s.mergeStored r v m).inputs = s.inputs := by
  simp [State.mergeStored]
@[simp] theorem mergeStored_events (r : StoredReg) (v m : Word) : (s.mergeStored r v m).events = s.events := by
  simp [State.mergeStored]
@[simp] theorem mergeStored_draws (r : StoredReg) (v m : Word) : (s.mergeStored r v m).draws = s.draws := by
  simp [State.mergeStored]

@[simp] theorem scramble_acc16 (r : StoredReg) : (s.scramble r).acc16 = s.acc16 := by simp [State.scramble]
@[simp] theorem scramble_acc8 (r : StoredReg) : (s.scramble r).acc8 = s.acc8 := by simp [State.scramble]
@[simp] theorem scramble_bound (r : StoredReg) : (s.scramble r).bound = s.bound := by simp [State.scramble]
@[simp] theorem scramble_addr (r : StoredReg) : (s.scramble r).addr = s.addr := by simp [State.scramble]
@[simp] theorem scramble_env (r : StoredReg) : (s.scramble r).env = s.env := by simp [State.scramble]
@[simp] theorem scramble_waiting (r : StoredReg) : (s.scramble r).waiting = s.waiting := by simp [State.scramble]
@[simp] theorem scramble_res (r : StoredReg) : (s.scramble r).res = s.res := by simp [State.scramble]
@[simp] theorem scramble_inputs (r : StoredReg) : (s.scramble r).inputs = s.inputs := by simp [State.scramble]
@[simp] theorem scramble_events (r : StoredReg) : (s.scramble r).events = s.events := by simp [State.scramble]
@[simp] theorem scramble_draws (r : StoredReg) : (s.scramble r).draws = s.draws + 1 := by simp [State.scramble]

@[simp] theorem settle_acc16 (r : StoredReg) (v m : Word) (e : Byte) : (s.settle r v m e).acc16 = s.acc16 := by
  unfold State.settle
  split <;> simp
@[simp] theorem settle_acc8 (r : StoredReg) (v m : Word) (e : Byte) : (s.settle r v m e).acc8 = s.acc8 := by
  unfold State.settle
  split <;> simp
@[simp] theorem settle_bound (r : StoredReg) (v m : Word) (e : Byte) : (s.settle r v m e).bound = s.bound := by
  unfold State.settle
  split <;> simp
@[simp] theorem settle_addr (r : StoredReg) (v m : Word) (e : Byte) : (s.settle r v m e).addr = s.addr := by
  unfold State.settle
  split <;> simp
@[simp] theorem settle_env (r : StoredReg) (v m : Word) (e : Byte) : (s.settle r v m e).env = s.env := by
  unfold State.settle
  split <;> simp
@[simp] theorem settle_waiting (r : StoredReg) (v m : Word) (e : Byte) : (s.settle r v m e).waiting = s.waiting := by
  unfold State.settle
  split <;> simp
@[simp] theorem settle_res (r : StoredReg) (v m : Word) (e : Byte) : (s.settle r v m e).res = s.res := by
  unfold State.settle
  split <;> simp
@[simp] theorem settle_inputs (r : StoredReg) (v m : Word) (e : Byte) : (s.settle r v m e).inputs = s.inputs := by
  unfold State.settle
  split <;> simp
@[simp] theorem settle_events (r : StoredReg) (v m : Word) (e : Byte) : (s.settle r v m e).events = s.events := by
  unfold State.settle
  split <;> simp

/-- Reading a stored register back gives what was put there. -/
@[simp] theorem stored_setStored (r q : StoredReg) (v : Word) : (s.setStored r v).stored q = if r = q then v else s.stored q := by
  cases r <;> cases q <;> rfl

/-- The mux changes the register it is given and no other (20_memory.md R44). -/
@[simp] theorem stored_mergeStored (r q : StoredReg) (v m : Word) :
    (s.mergeStored r v m).stored q = if r = q then mux (s.stored r) v m else s.stored q := by
  simp [State.mergeStored]

/-- A scrambled register holds the next free value, every other one its own (20_memory.md R49). -/
@[simp] theorem stored_scramble (r q : StoredReg) : (s.scramble r).stored q = if r = q then s.unspec else s.stored q := by
  cases r <;> cases q <;> rfl

end Sys2Proof.Machine
end

