-- ==== Sys2Proof/Laws/Ops.lean ====
section
/-! SUPPORT. What each shared operation can do, said once: a commit, a read, the Bound check, the end of a command, the command port and
the step. -/

namespace Sys2Proof.Machine

/-- Everything a settled commit can do to a state (20_memory.md R49). -/
theorem settle_cases (s : State) (r : StoredReg) (v m : Word) (terr : Byte) :
    (terr = 0 ∧ s.settle r v m terr = s.mergeStored r v m) ∨ (terr ≠ 0 ∧ s.settle r v m terr = s.scramble r) := by
  unfold State.settle
  split <;> simp_all

/-- Everything a commit can do: it always answers a next state (41_driver.md R118; 70_reset_and_hazards.md R170). -/
theorem commit_cases {dev : BitVec 7} {r : StoredReg} {v m : Word} {after : State → State} {s : State} {o : StepOutcome}
    (h : commit dev r v m after s = o) :
    (s.env.answers = true ∧
      o = .next ((after ((s.emit (commitEvent dev r v m)).settle r v m s.env.terr)).finish s.env.terr 0 false)) ∨
    (s.env.answers = false ∧ o = .next (s.emit (commitEvent dev r v m)).await) := by
  subst h
  unfold commit
  cases s.env.answers <;> simp

/-- A commit whose verdict is 0 merges the pair (20_memory.md R49). -/
theorem commit_success {dev : BitVec 7} {r : StoredReg} {v m : Word} {after : State → State} {s : State}
    (ha : s.env.answers = true) (ht : s.env.terr = 0) :
    commit dev r v m after s =
      .next ((after ((s.emit (commitEvent dev r v m)).mergeStored r v m)).finish 0 0 false) := by
  unfold commit State.settle
  rw [if_pos ha, if_pos ht, ht]

/-- A commit with another verdict leaves a free value in the register (20_memory.md R49). -/
theorem commit_failure {dev : BitVec 7} {r : StoredReg} {v m : Word} {after : State → State} {s : State}
    (ha : s.env.answers = true) (ht : s.env.terr ≠ 0) :
    commit dev r v m after s =
      .next ((after ((s.emit (commitEvent dev r v m)).scramble r)).finish s.env.terr 0 false) := by
  unfold commit State.settle
  rw [if_pos ha, if_neg ht]

/-- A commit the transport does not answer (70_reset_and_hazards.md R170). -/
theorem commit_silent {dev : BitVec 7} {r : StoredReg} {v m : Word} {after : State → State} {s : State}
    (ha : s.env.answers = false) : commit dev r v m after s = .next (s.emit (commitEvent dev r v m)).await := by
  unfold commit
  simp [ha]

/-- Everything a read can do (20_memory.md R50; 70_reset_and_hazards.md R170). -/
theorem readInput_cases {r : InputReg} {s : State} {o : StepOutcome} (h : readInput r s = o) :
    (s.env.answers = true ∧ s.env.terr = 0 ∧ o = .next ((s.emit (readEvent s.addr r)).finish 0 (s.sampled r) false)) ∨
    (s.env.answers = true ∧ s.env.terr ≠ 0 ∧
      o = .next ((s.emit (readEvent s.addr r)).drawn.finish s.env.terr s.unspec false)) ∨
    (s.env.answers = false ∧ o = .next (s.emit (readEvent s.addr r)).await) := by
  subst h
  unfold readInput
  cases s.env.answers
  · simp
  · by_cases ht : s.env.terr = 0
    · simp [ht]
    · exact .inr (.inl ⟨rfl, ht, by simpa using fun h => absurd h ht⟩)

/-- A read whose verdict is 0 answers the sensor's word (20_memory.md R50). -/
theorem readInput_success {r : InputReg} {s : State} (ha : s.env.answers = true) (ht : s.env.terr = 0) :
    readInput r s = .next ((s.emit (readEvent s.addr r)).finish 0 (s.sampled r) false) := by
  unfold readInput
  rw [if_pos ha, if_pos ht]

/-- A read with another verdict answers a free value (20_memory.md R50). -/
theorem readInput_failure {r : InputReg} {s : State} (ha : s.env.answers = true) (ht : s.env.terr ≠ 0) :
    readInput r s = .next ((s.emit (readEvent s.addr r)).drawn.finish s.env.terr s.unspec false) := by
  unfold readInput
  rw [if_pos ha, if_neg ht]

/-- A read the transport does not answer (70_reset_and_hazards.md R170). -/
theorem readInput_silent {r : InputReg} {s : State} (ha : s.env.answers = false) :
    readInput r s = .next (s.emit (readEvent s.addr r)).await := by
  unfold readInput
  simp [ha]

/-- Everything the Bound check can do (41_driver.md R119). -/
theorem whenBound_cases {op : Byte} {s : State} {o p : StepOutcome} (h : whenBound op s o = p) :
    (s.bound = true ∧ p = o) ∨ (s.bound = false ∧ p = .fault (.notBound op)) := by
  subst h
  unfold whenBound
  cases s.bound <;> simp

@[simp] theorem whenBound_bound {op : Byte} {s : State} {o : StepOutcome} (h : s.bound = true) : whenBound op s o = o := by
  simp [whenBound, h]

@[simp] theorem whenBound_unbound {op : Byte} {s : State} {o : StepOutcome} (h : s.bound = false) :
    whenBound op s o = .fault (.notBound op) := by
  simp [whenBound, h]

@[simp] theorem deliver_next (s t : State) : deliver s (.next t) = .next t := rfl

@[simp] theorem deliver_fault (s : State) (f : Fault) : deliver s (.fault f) = .next (s.reportFault f) := rfl

/-- If an accepted command ends in a next state, it is its own or the one that reports its fault. -/
theorem deliver_cases {s t : State} {o : StepOutcome} (h : deliver s o = .next t) :
    o = .next t ∨ ∃ f, o = .fault f ∧ t = s.reportFault f := by
  cases o with
  | next u => exact .inl (by simpa [deliver] using h)
  | fault f => exact .inr ⟨f, rfl, by simpa [deliver, eq_comm] using h⟩
  | refused r => simp [deliver] at h

/-- A commit never faults. -/
theorem commit_ne_fault {dev : BitVec 7} {r : StoredReg} {v m : Word} {after : State → State} {s : State} {f : Fault} :
    commit dev r v m after s ≠ .fault f := by
  intro h
  rcases commit_cases h with ⟨_, h⟩ | ⟨_, h⟩ <;> cases h

/-- A read never faults. -/
theorem readInput_ne_fault {r : InputReg} {s : State} {f : Fault} : readInput r s ≠ .fault f := by
  intro h
  rcases readInput_cases h with ⟨_, _, h⟩ | ⟨_, _, h⟩ | ⟨_, h⟩ <;> cases h

/-- A command shown at this step is the head of the stream. -/
theorem inputs_of_offered_command {s : State} {w : CmdWord} {e : Env} (h : s.offered = .command w e) :
    s.inputs = .command w e :: s.inputs.tail := by
  unfold State.offered at h
  cases hi : s.inputs <;> rw [hi] at h <;> simp at h
  simp [h]

/-- A reset shown at this step is the head of the stream. -/
theorem inputs_of_offered_rst {s : State} (h : s.offered = .rst) : s.inputs = .rst :: s.inputs.tail := by
  unfold State.offered at h
  cases hi : s.inputs <;> rw [hi] at h <;> simp at h
  simp [h]

/-- Everything the command port can do with a step (30_encoding.md R65; 70_reset_and_hazards.md R160, R170). -/
theorem portAction_cases (s : State) :
    (s.offered = .rst ∧ portAction s = .pass s.consume.resetBlock) ∨
    (s.offered = .idle ∧ portAction s = .pass s.consume) ∨
    (∃ w e, s.offered = .command w e ∧ s.waiting = true ∧ portAction s = .pass s.consume) ∨
    (∃ w e, s.offered = .command w e ∧ s.waiting = false ∧ portAction s = .run w (s.consume.sample e)) := by
  unfold portAction
  rcases h : s.offered with _ | _ | ⟨w, e⟩
  · simp
  · simp
  · cases hw : s.waiting <;> simp

/-- Everything a step can do: it resets, it passes, or it runs a word to its own next state, to a reported fault of the command, or to a
reported illegal command; a refusal of a command would be the step's. -/
theorem step_cases {s : State} {o : StepOutcome} (h : step s = o) :
    (s.offered = .rst ∧ o = .next s.consume.resetBlock) ∨
    ((s.offered = .idle ∨ s.waiting = true ∧ ∃ w e, s.offered = .command w e) ∧ o = .next s.consume) ∨
    (∃ w e, s.offered = .command w e ∧ s.waiting = false ∧
      ((∃ i, decode w = .ok i ∧ o = deliver (s.consume.sample e) (exec i (s.consume.sample e))) ∨
       (∃ op, decode w = .error (.reservedOp op) ∧ o = .next ((s.consume.sample e).reportFault (.illegalCommand op))))) := by
  subst h
  unfold step
  rcases portAction_cases s with ⟨h, hp⟩ | ⟨h, hp⟩ | ⟨w, e, h, hw, hp⟩ | ⟨w, e, h, hw, hp⟩
  · exact .inl ⟨h, by rw [hp]⟩
  · exact .inr (.inl ⟨.inl h, by rw [hp]⟩)
  · exact .inr (.inl ⟨.inr ⟨hw, w, e, h⟩, by rw [hp]⟩)
  · refine .inr (.inr ⟨w, e, h, hw, ?_⟩)
    rw [hp]
    rcases hd : decode w with ⟨⟨op⟩⟩ | i
    · exact .inr ⟨op, rfl, by simp [decodeCommand, hd]⟩
    · exact .inl ⟨i, rfl, by simp [decodeCommand, hd]⟩

end Sys2Proof.Machine
end

