-- ==== Sys2Proof/Laws/Exec.lean ====
section
/-! SUPPORT. Everything a command can do, said once: the shapes of `exec`'s outcome, from which invariants over all commands follow. -/

namespace Sys2Proof.Machine

/-- The commit a writing driver command runs: device address, register, pair, and what it does besides
(41_driver.md R120 to R126). -/
inductive CommitOf (s : State) : Instr → BitVec 7 → StoredReg → Word → Word → (State → State) → Prop
  | begin (address : BitVec 7) : CommitOf s (.beginBind address true) address .conf 0 1 (fun t => t.bind address)
  | wakeup (h : s.bound = true) : CommitOf s .wakeup s.addr .conf 0 1 id
  | shutdown (h : s.bound = true) : CommitOf s .shutdown s.addr .conf 1 1 id
  | setht (h : s.bound = true) (v : Word) : CommitOf s (.setht v) s.addr .wh v 0xFFFF id
  | setlt (h : s.bound = true) (v : Word) : CommitOf s (.setlt v) s.addr .wl v 0xFFFF id
  | setconfig (h : s.bound = true) :
      CommitOf s .setconfig s.addr .conf s.acc16.value s.acc16.mask (fun t => t.setAcc16 (freshMrv 16))
  | setpsconfig (h : s.bound = true) :
      CommitOf s .setpsconfig s.addr .psconf (s.acc8.value.setWidth 16) (s.acc8.mask.setWidth 16)
        (fun t => t.setAcc8 (freshMrv 8))

/-- The register a reading driver command reads (41_driver.md R127, R128). -/
inductive ReadOf : Instr → InputReg → Prop
  | white : ReadOf (.getch chWhite) .white
  | als : ReadOf (.getch chAls) .als
  | intstat : ReadOf .getintevt .intstat

/-- Everything a command can do. -/
inductive Shape (i : Instr) (s : State) (o : StepOutcome) : Prop
  /-- A composer command on `ACC16`: a set, load or clear. -/
  | wide (r : Mrv 16)
      (hi : i.mnemonic ∈ [Mnemonic.mclr16, .mld16, .msetf16, .setgain, .setit, .setpers, .setint, .setsd])
      (h : o = .next (s.setAcc16 r).done)
  /-- A composer command on `ACC8`: a set, load or clear. -/
  | narrow (r : Mrv 8) (hi : i.mnemonic ∈ [Mnemonic.mclr8, .mld8, .msetf8, .setpsm, .setpsmen])
      (h : o = .next (s.setAcc8 r).done)
  /-- A get-field command. -/
  | get (data : Word) (present : Bool)
      (hi : i.mnemonic ∈ [Mnemonic.mgetf16, .mgetf8, .getgain, .getit, .getpers, .getint, .getsd, .getpsm, .getpsmen])
      (h : o = .next (s.finish 0 data present))
  /-- BEGIN without its wake flag. -/
  | bind (address : BitVec 7) (hi : i = .beginBind address false) (h : o = .next (s.bind address).done)
  /-- A writing driver command. -/
  | commits (dev : BitVec 7) (r : StoredReg) (v m : Word) (after : State → State) (hi : CommitOf s i dev r v m after)
      (h : o = commit dev r v m after s)
  /-- A reading driver command. -/
  | reads (r : InputReg) (hb : s.bound = true) (hi : ReadOf i r) (h : o = readInput r s)
  /-- GETCH with a selector that names no channel. -/
  | badChannel (ch : Byte) (hb : s.bound = true) (hi : i = .getch ch) (hc : channel? ch = none)
      (h : o = .next (s.drawn.finish errChannel s.unspec false))
  /-- A driver command other than BEGIN, while Unbound. -/
  | unbound (hb : s.bound = false)
      (hi : i.mnemonic ∈ [Mnemonic.wakeup, .shutdown, .setht, .setlt, .setconfig, .setpsconfig, .getch, .getintevt])
      (h : o = .fault (.notBound i.mnemonic.op))

/-- Everything a command does is one of the shapes. -/
theorem exec_shape (i : Instr) (s : State) : Shape i s (exec i s) := by
  cases i with
  | mclr16 => exact .wide _ (by decide) rfl
  | mclr8 => exact .narrow _ (by decide) rfl
  | mld16 v m => exact .wide _ (by simp [Instr.mnemonic]) rfl
  | mld8 v m => exact .narrow _ (by simp [Instr.mnemonic]) rfl
  | msetf16 v m sh => exact .wide _ (by simp [Instr.mnemonic]) rfl
  | msetf8 v m sh => exact .narrow _ (by simp [Instr.mnemonic]) rfl
  | mgetf16 m sh => exact .get _ _ (by simp [Instr.mnemonic]) rfl
  | mgetf8 m sh => exact .get _ _ (by simp [Instr.mnemonic]) rfl
  | setgain v => exact .wide _ (by simp [Instr.mnemonic]) rfl
  | setit v => exact .wide _ (by simp [Instr.mnemonic]) rfl
  | setpers v => exact .wide _ (by simp [Instr.mnemonic]) rfl
  | setint v => exact .wide _ (by simp [Instr.mnemonic]) rfl
  | setsd v => exact .wide _ (by simp [Instr.mnemonic]) rfl
  | setpsm v => exact .narrow _ (by simp [Instr.mnemonic]) rfl
  | setpsmen v => exact .narrow _ (by simp [Instr.mnemonic]) rfl
  | getgain => exact .get _ _ (by decide) rfl
  | getit => exact .get _ _ (by decide) rfl
  | getpers => exact .get _ _ (by decide) rfl
  | getint => exact .get _ _ (by decide) rfl
  | getsd => exact .get _ _ (by decide) rfl
  | getpsm => exact .get _ _ (by decide) rfl
  | getpsmen => exact .get _ _ (by decide) rfl
  | beginBind address wakeUp =>
    cases wakeUp with
    | false => exact .bind address rfl rfl
    | true => exact .commits _ _ _ _ _ (.begin address) rfl
  | wakeup =>
    rcases hb : s.bound with _ | _
    · exact .unbound hb (by decide) (by simp [exec, execWakeup, hb, Instr.mnemonic])
    · exact .commits _ _ _ _ _ (.wakeup hb) (by simp [exec, execWakeup, hb])
  | shutdown =>
    rcases hb : s.bound with _ | _
    · exact .unbound hb (by decide) (by simp [exec, execShutdown, hb, Instr.mnemonic])
    · exact .commits _ _ _ _ _ (.shutdown hb) (by simp [exec, execShutdown, hb])
  | setht v =>
    rcases hb : s.bound with _ | _
    · exact .unbound hb (by simp [Instr.mnemonic]) (by simp [exec, execSetht, hb, Instr.mnemonic])
    · exact .commits _ _ _ _ _ (.setht hb v) (by simp [exec, execSetht, hb])
  | setlt v =>
    rcases hb : s.bound with _ | _
    · exact .unbound hb (by simp [Instr.mnemonic]) (by simp [exec, execSetlt, hb, Instr.mnemonic])
    · exact .commits _ _ _ _ _ (.setlt hb v) (by simp [exec, execSetlt, hb])
  | setconfig =>
    rcases hb : s.bound with _ | _
    · exact .unbound hb (by decide) (by simp [exec, execSetconfig, hb, Instr.mnemonic])
    · exact .commits _ _ _ _ _ (.setconfig hb) (by simp [exec, execSetconfig, hb])
  | setpsconfig =>
    rcases hb : s.bound with _ | _
    · exact .unbound hb (by decide) (by simp [exec, execSetpsconfig, hb, Instr.mnemonic])
    · exact .commits _ _ _ _ _ (.setpsconfig hb) (by simp [exec, execSetpsconfig, hb])
  | getch ch =>
    rcases hb : s.bound with _ | _
    · exact .unbound hb (by simp [Instr.mnemonic]) (by simp [exec, execGetch, hb, Instr.mnemonic])
    · by_cases hw : ch = chWhite
      · subst hw
        exact .reads .white hb .white (by simp [exec, execGetch, hb, channel?])
      · by_cases ha : ch = chAls
        · subst ha
          exact .reads .als hb .als (by simp [exec, execGetch, hb, channel?, hw])
        · have hc : channel? ch = none := by simp [channel?, hw, ha]
          exact .badChannel ch hb rfl hc (by simp [exec, execGetch, hb, hc])
  | getintevt =>
    rcases hb : s.bound with _ | _
    · exact .unbound hb (by decide) (by simp [exec, execGetintevt, hb, Instr.mnemonic])
    · exact .reads .intstat hb .intstat (by simp [exec, execGetintevt, hb])

end Sys2Proof.Machine
end

