-- ==== Sys2Proof/Laws/Flags.lean ====
section
/-! SUPPORT. The mux and the two field functions bit by bit (20_memory.md R44; 40_composer.md R82, R83). -/

namespace Sys2Proof.Machine

/-- The mux, one bit: the value's bit where the mask is 1, else the old bit (20_memory.md R44). -/
theorem getLsbD_mux (old v m : Word) (i : Nat) :
    (mux old v m).getLsbD i = if m.getLsbD i then v.getLsbD i else old.getLsbD i := by
  unfold mux
  by_cases hi : i < 16
  · simp only [BitVec.getLsbD_eq_getElem hi]
    cases hm : m[i] <;> simp [hm]
  · rw [BitVec.getLsbD_of_ge _ _ (by omega), BitVec.getLsbD_of_ge v _ (by omega), BitVec.getLsbD_of_ge old _ (by omega)]
    simp

/-- The inserted bits: those of the shifted value that lie in the mask (40_composer.md R82). -/
theorem getLsbD_fieldInsert {w : Nat} (hw : w ≤ 32) (fv fm : BitVec w) (sh : BitVec 4) (i : Nat) :
    (fieldInsert fv fm sh).getLsbD i = (fm.getLsbD i && decide (sh.toNat ≤ i) && fv.getLsbD (i - sh.toNat)) := by
  unfold fieldInsert
  by_cases hi : i < w
  · have h32 : i < 32 := by omega
    by_cases hs : sh.toNat ≤ i <;>
      simp [hi, h32, hs, Bool.and_comm, Nat.not_lt.mpr, Nat.lt_of_not_le]
  · rw [BitVec.getLsbD_of_ge _ _ (by omega), BitVec.getLsbD_of_ge fm _ (by omega)]
    simp

/-- A set field, one value bit: the inserted bit under the mask, else the old bit (40_composer.md R82). -/
theorem getLsbD_setField_value {w : Nat} (hw : w ≤ 32) (r : Mrv w) (fv fm : BitVec w) (sh : BitVec 4) (i : Nat) :
    (setField r fv fm sh).value.getLsbD i =
      if fm.getLsbD i then decide (sh.toNat ≤ i) && fv.getLsbD (i - sh.toNat) else r.value.getLsbD i := by
  have hf := getLsbD_fieldInsert hw fv fm sh i
  by_cases hi : i < w
  · cases hm : fm.getLsbD i <;> simp_all [setField]
  · have h1 : fm.getLsbD i = false := BitVec.getLsbD_of_ge fm _ (by omega)
    have h2 : r.value.getLsbD i = false := BitVec.getLsbD_of_ge r.value _ (by omega)
    rw [BitVec.getLsbD_of_ge _ _ (by omega)]
    simp [h1, h2]

@[simp] theorem setField_mask {w : Nat} (r : Mrv w) (fv fm : BitVec w) (sh : BitVec 4) :
    (setField r fv fm sh).mask = r.mask ||| fm := rfl

/-- A field whose bits are all specified is present, with its shifted value (40_composer.md R83). -/
theorem getField_present {w : Nat} {r : Mrv w} {fm : BitVec w} {sh : BitVec 4} (h : r.mask &&& fm = fm) :
    getField r fm sh = { present := true, data := ((r.value &&& fm) >>> sh.toNat).setWidth 16 } := by
  simp [getField, h]

/-- A field with an unspecified bit is absent and reads as the sentinel (40_composer.md R83). -/
theorem getField_absent {w : Nat} {r : Mrv w} {fm : BitVec w} {sh : BitVec 4} (h : r.mask &&& fm ≠ fm) :
    getField r fm sh = { present := false, data := 0x00FF } := by
  simp [getField, h, notPresent]

/-- A full-mask merge replaces the word (20_memory.md R43). -/
@[simp] theorem mux_full (old v : Word) : mux old v 0xFFFF#16 = v := by
  simp [mux, show v &&& 0xFFFF#16 = v from BitVec.and_allOnes]

/-- The mux with a pair widened from eight bits works on the low byte alone (20_memory.md R45). -/
theorem mux_narrow (old : Word) (v m : Byte) :
    mux old (v.setWidth 16) (m.setWidth 16) =
      old.extractLsb' 8 8 ++ ((old.extractLsb' 0 8 &&& ~~~m) ||| (v &&& m)) := by
  apply BitVec.eq_of_getLsbD_eq
  intro i hi
  rw [getLsbD_mux, BitVec.getLsbD_append]
  by_cases h : i < 8
  · simp [h, hi]
    cases m[i] <;> simp
  · have hm : (m.setWidth 16 : Word).getLsbD i = false := by
      rw [BitVec.getLsbD_setWidth, BitVec.getLsbD_of_ge m i (by omega)]
      simp
    rw [hm]
    simp [h, hi, show 8 + (i - 8) = i by omega, show i - 8 < 8 by omega]

/-- A mask covers a field exactly when it has every bit of it (40_composer.md R83). -/
theorem and_eq_right_iff {w : Nat} (m fm : BitVec w) :
    m &&& fm = fm ↔ ∀ k < w, fm.getLsbD k = true → m.getLsbD k = true := by
  constructor
  · intro h k _ hf
    rw [← h, BitVec.getLsbD_and] at hf
    simp at hf
    exact hf.1
  · intro h
    apply BitVec.eq_of_getLsbD_eq
    intro i hi
    rw [BitVec.getLsbD_and]
    cases hf : fm.getLsbD i
    · simp
    · simp [h i hi hf]

/-- Where two masks are disjoint, a bit of one is no bit of the other. -/
theorem getLsbD_of_disjoint {w : Nat} {a b : BitVec w} (h : a &&& b = 0) {i : Nat} (hb : b.getLsbD i = true) :
    a.getLsbD i = false := by
  have := congrArg (·.getLsbD i) h
  simp only [BitVec.getLsbD_and, hb, Bool.and_true] at this
  simpa using this

end Sys2Proof.Machine
end

