-- ==== Sys2Proof/Laws/PerInstr.lean ====
section
/-! SUPPORT. One law per instruction about its word: the command is well formed, its word carries the row's opcode and a zero reserved
field, and no bit stands where the row reads none (30_encoding.md R60 to R63, R66). -/

namespace Sys2Proof.Laws.EncodeForm

/-- What the encoding of a command looks like. -/
def Statement (i : Instr) : Prop :=
  i.wellFormed = true ∧ opField (encode i) = i.mnemonic.op ∧ rsvField (encode i) = 0 ∧
    encode i &&& i.mnemonic.usedBits = encode i

theorem mclr16 : Statement .mclr16 := by
  exact ⟨rfl, by decide, by decide, by decide⟩

theorem mclr8 : Statement .mclr8 := by
  exact ⟨rfl, by decide, by decide, by decide⟩

theorem mld16 (v m : Word) : Statement (.mld16 v m) := by
  refine ⟨?_, by simp [encode, Instr.mnemonic, Mnemonic.op], by simp [encode],
    by simp [encode, Instr.mnemonic, Mnemonic.usedBits, c48_and]⟩
  simp [Instr.wellFormed, Instr.line, Instr.operands, Instr.mnemonic, AsmLine.wellFormed, AsmLine.check, AsmOp.widths,
    Mnemonic.slots, Except.isOk, Except.toBool, v.isLt, m.isLt]

theorem mld8 (v m : Byte) : Statement (.mld8 v m) := by
  refine ⟨?_, by simp [encode, Instr.mnemonic, Mnemonic.op], by simp [encode],
    by simp [encode, Instr.mnemonic, Mnemonic.usedBits, c48_and]⟩
  simp [Instr.wellFormed, Instr.line, Instr.operands, Instr.mnemonic, AsmLine.wellFormed, AsmLine.check, AsmOp.widths,
    Mnemonic.slots, Except.isOk, Except.toBool, v.isLt, m.isLt]

theorem msetf16 (v m : Word) (sh : BitVec 4) : Statement (.msetf16 v m sh) := by
  refine ⟨?_, by simp [encode, Instr.mnemonic, Mnemonic.op], by simp [encode],
    by simp [encode, Instr.mnemonic, Mnemonic.usedBits, c48_and]⟩
  simp [Instr.wellFormed, Instr.line, Instr.operands, Instr.mnemonic, AsmLine.wellFormed, AsmLine.check, AsmOp.widths,
    Mnemonic.slots, Except.isOk, Except.toBool, v.isLt, m.isLt, sh.isLt]

theorem msetf8 (v m : Byte) (sh : BitVec 4) : Statement (.msetf8 v m sh) := by
  refine ⟨?_, by simp [encode, Instr.mnemonic, Mnemonic.op], by simp [encode],
    by simp [encode, Instr.mnemonic, Mnemonic.usedBits, c48_and]⟩
  simp [Instr.wellFormed, Instr.line, Instr.operands, Instr.mnemonic, AsmLine.wellFormed, AsmLine.check, AsmOp.widths,
    Mnemonic.slots, Except.isOk, Except.toBool, v.isLt, m.isLt, sh.isLt]

theorem mgetf16 (m : Word) (sh : BitVec 4) : Statement (.mgetf16 m sh) := by
  refine ⟨?_, by simp [encode, Instr.mnemonic, Mnemonic.op], by simp [encode],
    by simp [encode, Instr.mnemonic, Mnemonic.usedBits, c48_and]⟩
  simp [Instr.wellFormed, Instr.line, Instr.operands, Instr.mnemonic, AsmLine.wellFormed, AsmLine.check, AsmOp.widths,
    Mnemonic.slots, Except.isOk, Except.toBool, m.isLt, sh.isLt]

theorem mgetf8 (m : Byte) (sh : BitVec 4) : Statement (.mgetf8 m sh) := by
  refine ⟨?_, by simp [encode, Instr.mnemonic, Mnemonic.op], by simp [encode],
    by simp [encode, Instr.mnemonic, Mnemonic.usedBits, c48_and]⟩
  simp [Instr.wellFormed, Instr.line, Instr.operands, Instr.mnemonic, AsmLine.wellFormed, AsmLine.check, AsmOp.widths,
    Mnemonic.slots, Except.isOk, Except.toBool, m.isLt, sh.isLt]

theorem setgain (v : Word) : Statement (.setgain v) := by
  refine ⟨?_, by simp [encode, Instr.mnemonic, Mnemonic.op], by simp [encode],
    by simp [encode, Instr.mnemonic, Mnemonic.usedBits, c48_and]⟩
  simp [Instr.wellFormed, Instr.line, Instr.operands, Instr.mnemonic, AsmLine.wellFormed, AsmLine.check, AsmOp.widths,
    Mnemonic.slots, Except.isOk, Except.toBool, v.isLt]

theorem setit (v : Word) : Statement (.setit v) := by
  refine ⟨?_, by simp [encode, Instr.mnemonic, Mnemonic.op], by simp [encode],
    by simp [encode, Instr.mnemonic, Mnemonic.usedBits, c48_and]⟩
  simp [Instr.wellFormed, Instr.line, Instr.operands, Instr.mnemonic, AsmLine.wellFormed, AsmLine.check, AsmOp.widths,
    Mnemonic.slots, Except.isOk, Except.toBool, v.isLt]

theorem setpers (v : Word) : Statement (.setpers v) := by
  refine ⟨?_, by simp [encode, Instr.mnemonic, Mnemonic.op], by simp [encode],
    by simp [encode, Instr.mnemonic, Mnemonic.usedBits, c48_and]⟩
  simp [Instr.wellFormed, Instr.line, Instr.operands, Instr.mnemonic, AsmLine.wellFormed, AsmLine.check, AsmOp.widths,
    Mnemonic.slots, Except.isOk, Except.toBool, v.isLt]

theorem setint (v : Word) : Statement (.setint v) := by
  refine ⟨?_, by simp [encode, Instr.mnemonic, Mnemonic.op], by simp [encode],
    by simp [encode, Instr.mnemonic, Mnemonic.usedBits, c48_and]⟩
  simp [Instr.wellFormed, Instr.line, Instr.operands, Instr.mnemonic, AsmLine.wellFormed, AsmLine.check, AsmOp.widths,
    Mnemonic.slots, Except.isOk, Except.toBool, v.isLt]

theorem setsd (v : Word) : Statement (.setsd v) := by
  refine ⟨?_, by simp [encode, Instr.mnemonic, Mnemonic.op], by simp [encode],
    by simp [encode, Instr.mnemonic, Mnemonic.usedBits, c48_and]⟩
  simp [Instr.wellFormed, Instr.line, Instr.operands, Instr.mnemonic, AsmLine.wellFormed, AsmLine.check, AsmOp.widths,
    Mnemonic.slots, Except.isOk, Except.toBool, v.isLt]

theorem setpsm (v : Byte) : Statement (.setpsm v) := by
  refine ⟨?_, by simp [encode, Instr.mnemonic, Mnemonic.op], by simp [encode],
    by simp [encode, Instr.mnemonic, Mnemonic.usedBits, c48_and]⟩
  simp [Instr.wellFormed, Instr.line, Instr.operands, Instr.mnemonic, AsmLine.wellFormed, AsmLine.check, AsmOp.widths,
    Mnemonic.slots, Except.isOk, Except.toBool, v.isLt]

theorem setpsmen (v : Byte) : Statement (.setpsmen v) := by
  refine ⟨?_, by simp [encode, Instr.mnemonic, Mnemonic.op], by simp [encode],
    by simp [encode, Instr.mnemonic, Mnemonic.usedBits, c48_and]⟩
  simp [Instr.wellFormed, Instr.line, Instr.operands, Instr.mnemonic, AsmLine.wellFormed, AsmLine.check, AsmOp.widths,
    Mnemonic.slots, Except.isOk, Except.toBool, v.isLt]

theorem getgain : Statement .getgain := by
  exact ⟨rfl, by decide, by decide, by decide⟩

theorem getit : Statement .getit := by
  exact ⟨rfl, by decide, by decide, by decide⟩

theorem getpers : Statement .getpers := by
  exact ⟨rfl, by decide, by decide, by decide⟩

theorem getint : Statement .getint := by
  exact ⟨rfl, by decide, by decide, by decide⟩

theorem getsd : Statement .getsd := by
  exact ⟨rfl, by decide, by decide, by decide⟩

theorem getpsm : Statement .getpsm := by
  exact ⟨rfl, by decide, by decide, by decide⟩

theorem getpsmen : Statement .getpsmen := by
  exact ⟨rfl, by decide, by decide, by decide⟩

theorem beginBind (address : BitVec 7) (wakeUp : Bool) : Statement (.beginBind address wakeUp) := by
  refine ⟨?_, by simp [encode, Instr.mnemonic, Mnemonic.op], by simp [encode],
    by simp [encode, Instr.mnemonic, Mnemonic.usedBits, c48_and]⟩
  simp [Instr.wellFormed, Instr.line, Instr.operands, Instr.mnemonic, AsmLine.wellFormed, AsmLine.check, AsmOp.widths,
    Mnemonic.slots, Except.isOk, Except.toBool, address.isLt, Bool.toNat_lt wakeUp]

theorem wakeup : Statement .wakeup := by
  exact ⟨rfl, by decide, by decide, by decide⟩

theorem shutdown : Statement .shutdown := by
  exact ⟨rfl, by decide, by decide, by decide⟩

theorem setht (v : Word) : Statement (.setht v) := by
  refine ⟨?_, by simp [encode, Instr.mnemonic, Mnemonic.op], by simp [encode],
    by simp [encode, Instr.mnemonic, Mnemonic.usedBits, c48_and]⟩
  simp [Instr.wellFormed, Instr.line, Instr.operands, Instr.mnemonic, AsmLine.wellFormed, AsmLine.check, AsmOp.widths,
    Mnemonic.slots, Except.isOk, Except.toBool, v.isLt]

theorem setlt (v : Word) : Statement (.setlt v) := by
  refine ⟨?_, by simp [encode, Instr.mnemonic, Mnemonic.op], by simp [encode],
    by simp [encode, Instr.mnemonic, Mnemonic.usedBits, c48_and]⟩
  simp [Instr.wellFormed, Instr.line, Instr.operands, Instr.mnemonic, AsmLine.wellFormed, AsmLine.check, AsmOp.widths,
    Mnemonic.slots, Except.isOk, Except.toBool, v.isLt]

theorem setconfig : Statement .setconfig := by
  exact ⟨rfl, by decide, by decide, by decide⟩

theorem setpsconfig : Statement .setpsconfig := by
  exact ⟨rfl, by decide, by decide, by decide⟩

theorem getch (channel : Byte) : Statement (.getch channel) := by
  refine ⟨?_, by simp [encode, Instr.mnemonic, Mnemonic.op], by simp [encode],
    by simp [encode, Instr.mnemonic, Mnemonic.usedBits, c48_and]⟩
  simp [Instr.wellFormed, Instr.line, Instr.operands, Instr.mnemonic, AsmLine.wellFormed, AsmLine.check, AsmOp.widths,
    Mnemonic.slots, Except.isOk, Except.toBool, channel.isLt]

theorem getintevt : Statement .getintevt := by
  exact ⟨rfl, by decide, by decide, by decide⟩

end Sys2Proof.Laws.EncodeForm
end

