-- ==== Sys2Proof/Laws/Run.lean ====
section
/-! SUPPORT. The host's run of `k + 1` steps, by the outcome of its first step. -/

namespace Sys2Proof.Machine

theorem run_succ_next {M : Host.Core} (k : Nat) {s t : M.State} (h : M.step s = .next t) : M.run (k + 1) s = M.run k t := by
  simp only [Host.Core.run, h]

theorem run_succ_fault {M : Host.Core} (k : Nat) {s : M.State} {f : M.Fault} (h : M.step s = .fault f) :
    M.run (k + 1) s = .fault f := by
  simp only [Host.Core.run, h]

theorem run_succ_refused {M : Host.Core} (k : Nat) {s : M.State} {r : M.Refusal} (h : M.step s = .refused r) :
    M.run (k + 1) s = .refused r := by
  simp only [Host.Core.run, h]

end Sys2Proof.Machine
end

