-- ==== Sys2Proof/Tests/Slice0.lean ====
section
/-! SUPPORT. The model's own tests: the ill-formed lines, one decoded word per command written out from 30_encoding.md R60 to R63, single
steps from 95_test_vectors.md, and a witness for every statement with hypotheses. -/

namespace Sys2Proof.Tests

open Sys2Proof.Machine

/-! ### Well-formedness -/

/-- An operand that does not fit its field (30_encoding.md R66). -/
theorem test_wide_operand_refused :
    (AsmLine.mk (.command .mld8) [0x100, 0xFF]).check = .error .operandTooWide ∧
    (AsmLine.mk (.command .mld8) [0xFF, 0xFF]).check = .ok () := by decide

/-- The wake flag is one bit and the address seven (30_encoding.md R61). -/
theorem test_wide_begin_refused :
    (AsmLine.mk (.command .beginBind) [0x10, 2]).check = .error .operandTooWide ∧
    (AsmLine.mk (.command .beginBind) [0x80, 1]).check = .error .operandTooWide ∧
    (AsmLine.mk (.command .beginBind) [0x7F, 1]).check = .ok () := by decide

/-- A missing operand, and one too many (30_encoding.md R66). -/
theorem test_operand_count_refused :
    (AsmLine.mk (.command .setgain) []).check = .error .operandCount ∧
    (AsmLine.mk (.command .mclr16) [0]).check = .error .operandCount ∧
    (AsmLine.mk (.command .setgain) [0xFFFF]).check = .ok () := by decide

/-- A shift is four bits (30_encoding.md R60). -/
theorem test_wide_shift_refused :
    (AsmLine.mk (.command .msetf16) [1, 1, 16]).wellFormed = false ∧
    (AsmLine.mk (.command .msetf16) [1, 1, 15]).wellFormed = true := by decide

/-- The full-mask pseudo-instruction of 30_encoding.md R68. -/
theorem test_pseudo_setconfig :
    assemble { op := .setconfigFull, operands := [0x1212] } = .ok [0x0300FFFF1212, 0x250000000000] := by decide

/-- The example line of 30_encoding.md R60. -/
theorem test_assemble_msetf16 :
    assemble { op := .command .msetf16, operands := [0x00FF, 0x0FF0, 4] } = .ok [0x05040FF000FF] := by decide

/-! ### Decoding: words written out from 30_encoding.md R60 to R63 -/

theorem test_decode_mclr16 : decode 0x010000000000 = .ok .mclr16 := by decide
theorem test_decode_mclr8 : decode 0x020000000000 = .ok .mclr8 := by decide
theorem test_decode_mld16 : decode 0x03000001FFFE = .ok (.mld16 0xFFFE 0x0001) := by decide
theorem test_decode_mld8 : decode 0x040012FF3403 = .ok (.mld8 0x03 0xFF) := by decide
theorem test_decode_msetf16 : decode 0x05040FF000FF = .ok (.msetf16 0x00FF 0x0FF0 4) := by decide
theorem test_decode_msetf8 : decode 0x060900FE0001 = .ok (.msetf8 0x01 0xFE 9) := by decide
theorem test_decode_mgetf16 : decode 0x070618400000 = .ok (.mgetf16 0x1840 6) := by decide
theorem test_decode_mgetf8 : decode 0x080100060000 = .ok (.mgetf8 0x06 1) := by decide
theorem test_decode_setgain : decode 0x10F5ABCD0001 = .ok (.setgain 1) := by decide
theorem test_decode_setit : decode 0x11000000001F = .ok (.setit 0x1F) := by decide
theorem test_decode_setpers : decode 0x120000000002 = .ok (.setpers 2) := by decide
theorem test_decode_setint : decode 0x130000000001 = .ok (.setint 1) := by decide
theorem test_decode_setsd : decode 0x140000008000 = .ok (.setsd 0x8000) := by decide
theorem test_decode_setpsm : decode 0x15000000AB03 = .ok (.setpsm 0x03) := by decide
theorem test_decode_setpsmen : decode 0x160000000001 = .ok (.setpsmen 1) := by decide
theorem test_decode_getgain : decode 0x180000000000 = .ok .getgain := by decide
theorem test_decode_getit : decode 0x190000000000 = .ok .getit := by decide
theorem test_decode_getpers : decode 0x1A0000000000 = .ok .getpers := by decide
theorem test_decode_getint : decode 0x1B0000000000 = .ok .getint := by decide
theorem test_decode_getsd : decode 0x1C0000000000 = .ok .getsd := by decide
theorem test_decode_getpsm : decode 0x1D0000000000 = .ok .getpsm := by decide
theorem test_decode_getpsmen : decode 0x1E0000000000 = .ok .getpsmen := by decide
theorem test_decode_begin : decode 0x200000010010 = .ok (.beginBind 0x10 true) := by decide
theorem test_decode_wakeup : decode 0x210000000000 = .ok .wakeup := by decide
theorem test_decode_shutdown : decode 0x220000000000 = .ok .shutdown := by decide
theorem test_decode_setht : decode 0x230000002710 = .ok (.setht 0x2710) := by decide
theorem test_decode_setlt : decode 0x240000000064 = .ok (.setlt 0x0064) := by decide
theorem test_decode_setconfig : decode 0x250000000000 = .ok .setconfig := by decide
theorem test_decode_setpsconfig : decode 0x260000000000 = .ok .setpsconfig := by decide
theorem test_decode_getch : decode 0x27000000FF05 = .ok (.getch 0x05) := by decide
theorem test_decode_getintevt : decode 0x280000000000 = .ok .getintevt := by decide

/-- The edges of the holes of 30_encoding.md R64. -/
theorem test_decode_holes :
    [0x00, 0x09, 0x0F, 0x17, 0x1F, 0x29, 0xFF].all
      (fun op => decide (decode (c48 op 0 0 0 1) = .error (.reservedOp op))) = true := by decide

/-- A table row of 48 bits, and a word too long to be one. -/
theorem test_decode_table_word :
    decodeTableWord 48 0x03000001FFFE = some (.mld16 0xFFFE 0x0001) ∧ decodeTableWord 8 0x103 = none := by decide

/-! ### Single steps, from 95_test_vectors.md -/

/-- Pins with a verdict, and the three words of the vectors T78, T79 and T85. -/
def pins (terr : Byte) : Env := { terr := terr, answers := true, white := 0x1234, als := 0xBEEF, intstat := 0xC123 }

/-- A Bound block, as the driver vectors start. -/
def ready : State :=
  { acc16 := ⟨0x0800, 0x1BC0⟩, acc8 := ⟨0x06, 0x06⟩, bound := true, addr := 0x10
    conf := 0xFFFF, wh := 0, wl := 0x0064, psconf := 0xAB05, env := pins 0, waiting := false
    res := none, inputs := [], events := [], draws := 0 }

/-- The block of `ready`, Unbound. -/
def unbound : State := { ready with bound := false }

/-- The state after a step in which `w` is presented with the pins `e`. -/
def after (s : State) (w : CmdWord) (e : Env) : Option State :=
  match step (s.present w e) with
  | .next t => some t
  | .fault _ => none
  | .refused _ => none

/-- The result of a command that succeeds without data. -/
def plain : Option Results := some ⟨0, 0x0000, false, 0⟩

/-- T22. -/
theorem test_mclr16 : (after ready 0x010000000000 (pins 0)).map (fun t => (t.acc16, t.res)) = some (⟨0, 0⟩, plain) := by decide

/-- T39: ACC16 untouched. -/
theorem test_mclr8 :
    (after ready 0x020000000000 (pins 0)).map (fun t => (t.acc8, t.acc16)) = some (⟨0, 0⟩, ⟨0x0800, 0x1BC0⟩) := by decide

/-- T23. -/
theorem test_mld16 : (after ready 0x03000001FFFF (pins 0)).map State.acc16 = some ⟨0xFFFF, 0x0001⟩ := by decide

/-- T38. -/
theorem test_mld8 : (after ready 0x040000FF0003 (pins 0)).map State.acc8 = some ⟨0x03, 0xFF⟩ := by decide

/-- T14. -/
theorem test_msetf16 :
    (after { ready with acc16 := ⟨0, 0⟩ } 0x050500300003 (pins 0)).map State.acc16 = some ⟨0x0020, 0x0030⟩ := by decide

/-- T19: overlapping fields. -/
theorem test_msetf16_overlap :
    (after { ready with acc16 := ⟨0x00F0, 0x00F0⟩ } 0x050500600001 (pins 0)).map State.acc16 = some ⟨0x00B0, 0x00F0⟩ := by
  decide

/-- T35. -/
theorem test_msetf8 :
    (after { ready with acc8 := ⟨0, 0⟩ } 0x060400F000FF (pins 0)).map State.acc8 = some ⟨0xF0, 0xF0⟩ := by decide

/-- T36: a shift above the width inserts 0. -/
theorem test_msetf8_shift :
    (after { ready with acc8 := ⟨0, 0⟩ } 0x060900FF0001 (pins 0)).map State.acc8 = some ⟨0x00, 0xFF⟩ := by decide

/-- T12: a present value equal to the sentinel. -/
theorem test_mgetf16 :
    (after { ready with acc16 := ⟨0x0FF0, 0x0FF0⟩ } 0x07040FF00000 (pins 0)).map State.res = some (some ⟨0, 0x00FF, true, 0⟩) := by
  decide

/-- T21: a mask inside the union of earlier masks. -/
theorem test_mgetf16_union :
    (after ready 0x070618400000 (pins 0)).map State.res = some (some ⟨0, 0x0020, true, 0⟩) := by decide

/-- T37. -/
theorem test_mgetf8 :
    (after { ready with acc8 := ⟨0x07, 0x07⟩ } 0x080100060000 (pins 0)).map State.res = some (some ⟨0, 0x0003, true, 0⟩) := by
  decide

/-- T1: an oversize value is cut. -/
theorem test_setgain :
    (after { ready with acc16 := ⟨0, 0⟩ } 0x100000000005 (pins 0)).map State.acc16 = some ⟨0x0800, 0x1800⟩ := by decide

/-- T2: the last write wins. -/
theorem test_setgain_again :
    (after { ready with acc16 := ⟨0x1800, 0x1800⟩ } 0x100000000002 (pins 0)).map State.acc16 = some ⟨0x1000, 0x1800⟩ := by
  decide

/-- T3. -/
theorem test_setit :
    (after { ready with acc16 := ⟨0, 0⟩ } 0x11000000001F (pins 0)).map State.acc16 = some ⟨0x03C0, 0x03C0⟩ := by decide

/-- P2, step 3. -/
theorem test_setpers :
    (after { ready with acc16 := ⟨0x1200, 0x1BC0⟩ } 0x120000000001 (pins 0)).map State.acc16 = some ⟨0x1210, 0x1BF0⟩ := by
  decide

/-- T24: a field specified as 0. -/
theorem test_setint :
    (after { ready with acc16 := ⟨0, 0⟩ } 0x130000000002 (pins 0)).map State.acc16 = some ⟨0x0000, 0x0002⟩ := by decide

/-- P4, step 1: legal while Unbound. -/
theorem test_setsd :
    (after { unbound with acc16 := ⟨0, 0⟩ } 0x140000000001 (pins 0)).map State.acc16 = some ⟨0x0001, 0x0001⟩ := by decide

/-- T32: an oversize value is cut. -/
theorem test_setpsm :
    (after { ready with acc8 := ⟨0, 0⟩ } 0x150000000004 (pins 0)).map State.acc8 = some ⟨0x00, 0x06⟩ := by decide

/-- T31. -/
theorem test_setpsmen : (after ready 0x160000000001 (pins 0)).map State.acc8 = some ⟨0x07, 0x07⟩ := by decide

/-- T6. -/
theorem test_getgain : (after ready 0x180000000000 (pins 0)).map State.res = some (some ⟨0, 0x0001, true, 0⟩) := by decide

/-- T10: half of the field's mask bits. -/
theorem test_getgain_half :
    (after { ready with acc16 := ⟨0x0800, 0x1000⟩ } 0x180000000000 (pins 0)).map State.res = some (some ⟨0, 0x00FF, false, 0⟩) := by
  decide

/-- T7: a real 0. -/
theorem test_getit : (after ready 0x190000000000 (pins 0)).map State.res = some (some ⟨0, 0x0000, true, 0⟩) := by decide

/-- T8: never set. -/
theorem test_getpers : (after ready 0x1A0000000000 (pins 0)).map State.res = some (some ⟨0, 0x00FF, false, 0⟩) := by decide

/-- 40_composer.md R104, on the accumulator of P2's step 5. -/
theorem test_getint :
    (after { ready with acc16 := ⟨0x1212, 0x1BF3⟩ } 0x1B0000000000 (pins 0)).map State.res = some (some ⟨0, 0x0001, true, 0⟩) := by
  decide

/-- T9: no extra mask of the sentinel. -/
theorem test_getsd :
    (after { ready with acc16 := ⟨0, 0⟩ } 0x1C0000000000 (pins 0)).map State.res = some (some ⟨0, 0x00FF, false, 0⟩) := by decide

/-- T33. -/
theorem test_getpsm :
    (after { ready with acc8 := ⟨0x07, 0x07⟩ } 0x1D0000000000 (pins 0)).map State.res = some (some ⟨0, 0x0003, true, 0⟩) := by
  decide

/-- T34. -/
theorem test_getpsmen : (after ready 0x1E0000000000 (pins 0)).map State.res = some (some ⟨0, 0x00FF, false, 0⟩) := by decide

/-- T60. -/
theorem test_begin :
    (after { unbound with conf := 0x0001, addr := 0 } 0x200000010010 (pins 0)).map
      (fun t => (t.bound, t.addr, t.conf, t.res, t.events)) =
    some (true, 0x10, 0x0000, plain, [⟨.rmw, 0x10, 0x00, 0x0000, 0x0001⟩]) := by decide

/-- T62: a bad verdict does not undo the binding. -/
theorem test_begin_bad_verdict :
    (after { unbound with addr := 0 } 0x200000010010 (pins 2)).map (fun t => (t.bound, t.addr, t.res)) =
    some (true, 0x10, some ⟨2, 0x0000, false, 0⟩) := by decide

/-- T65. -/
theorem test_wakeup :
    (after { ready with conf := 0x1BF3 } 0x210000000000 (pins 0)).map (fun t => (t.conf, t.events)) =
    some (0x1BF2, [⟨.rmw, 0x10, 0x00, 0x0000, 0x0001⟩]) := by decide

/-- T64: `NotBound`, and nothing else. -/
theorem test_wakeup_unbound :
    (after unbound 0x210000000000 (pins 0)).map (fun t => (t.res.map Results.fault, t.conf, t.events)) =
    some (some 2, 0xFFFF, []) := by decide

/-- T66. -/
theorem test_shutdown :
    (after { ready with conf := 0x0800 } 0x220000000000 (pins 0)).map (fun t => (t.conf, t.events)) =
    some (0x0801, [⟨.rmw, 0x10, 0x00, 0x0001, 0x0001⟩]) := by decide

/-- T68. -/
theorem test_setht :
    (after ready 0x230000002710 (pins 0)).map (fun t => (t.wh, t.events)) =
    some (0x2710, [⟨.write, 0x10, 0x01, 0x2710, 0xFFFF⟩]) := by decide

/-- T69. -/
theorem test_setlt :
    (after { ready with wl := 0 } 0x240000000064 (pins 0)).map (fun t => (t.wl, t.events)) =
    some (0x0064, [⟨.write, 0x10, 0x02, 0x0064, 0xFFFF⟩]) := by decide

/-- T70: the verdict is handed back; WL, which the spec leaves open, is not looked at. -/
theorem test_setlt_bad_verdict :
    (after ready 0x24000000FFFF (pins 5)).map (fun t => (t.res, t.wh, t.events)) =
    some (some ⟨5, 0x0000, false, 0⟩, 0, [⟨.write, 0x10, 0x02, 0xFFFF, 0xFFFF⟩]) := by decide

/-- T71. -/
theorem test_setconfig :
    (after ready 0x250000000000 (pins 0)).map (fun t => (t.conf, t.acc16, t.events)) =
    some (0xEC3F, ⟨0, 0⟩, [⟨.rmw, 0x10, 0x00, 0x0800, 0x1BC0⟩]) := by decide

/-- T73: a full mask. -/
theorem test_setconfig_full :
    (after { ready with acc16 := ⟨0x1212, 0xFFFF⟩ } 0x250000000000 (pins 0)).map (fun t => (t.conf, t.events)) =
    some (0x1212, [⟨.write, 0x10, 0x00, 0x1212, 0xFFFF⟩]) := by decide

/-- T76. -/
theorem test_setpsconfig :
    (after ready 0x260000000000 (pins 0)).map (fun t => (t.psconf, t.acc8, t.events)) =
    some (0xAB07, ⟨0, 0⟩, [⟨.rmw, 0x10, 0x03, 0x0006, 0x0006⟩]) := by decide

/-- T77: never a `WRITE`. -/
theorem test_setpsconfig_full :
    (after { ready with acc8 := ⟨0x03, 0xFF⟩ } 0x260000000000 (pins 0)).map (fun t => (t.psconf, t.events)) =
    some (0xAB03, [⟨.rmw, 0x10, 0x03, 0x0003, 0x00FF⟩]) := by decide

/-- T79. -/
theorem test_getch :
    (after ready 0x270000000005 (pins 0)).map (fun t => (t.res, t.events)) =
    some (some ⟨0, 0xBEEF, false, 0⟩, [⟨.read, 0x10, 0x05, 0, 0⟩]) := by decide

/-- T80: an invalid selector, whatever the verdict pin. -/
theorem test_getch_invalid :
    (after ready 0x270000000007 (pins 3)).map (fun t => (t.res.map Results.err, t.events)) = some (some 8, []) := by decide

/-- T85. -/
theorem test_getintevt :
    (after ready 0x280000000000 (pins 0)).map (fun t => (t.res, t.events)) =
    some (some ⟨0, 0xC123, false, 0⟩, [⟨.read, 0x10, 0x06, 0, 0⟩]) := by decide

/-- T86 and T87: `IllegalCommand`. -/
theorem test_illegal_command :
    (after ready 0x000000000000 (pins 0)).map (fun t => (t.res.map Results.fault, t.acc16)) = some (some 1, ⟨0x0800, 0x1BC0⟩) ∧
    (after ready 0x170000000001 (pins 0)).map (fun t => (t.res.map Results.fault, t.acc16)) = some (some 1, ⟨0x0800, 0x1BC0⟩) := by
  decide

/-- T40, T41, T43, T45 and T48. -/
theorem test_mux :
    mux 0xFFFF 0x0800 0x1BC0 = 0xEC3F ∧ mux 0x0000 0xFFFF 0x0001 = 0x0001 ∧ mux 0x1234 0xFFFF 0x0000 = 0x1234 ∧
    mux 0xA5A5 0x5A5A 0x0FF0 = 0xAA55 ∧ mux 0xAB05 0x0006 0x0006 = 0xAB07 := by decide

/-- A word placed by `withFetchWord` is the next command after reset (95_test_vectors.md, T1). -/
theorem test_fetch_after_reset :
    (match step (State.reset.withFetchWord 48 0x100000000005) with
      | .next t => decide (t.acc16 = ⟨0x0800, 0x1800⟩)
      | .fault _ => false
      | .refused _ => false) = true := by decide

/-- The outputs of P2's end state. -/
theorem test_outputs :
    ({ ready with conf := 0xF61E, psconf := 0x0005 } : State).gainOut = 2 ∧
    ({ ready with conf := 0xF61E, psconf := 0x0005 } : State).itOut = 8 ∧
    ({ ready with conf := 0xF61E, psconf := 0x0005 } : State).persOut = 1 ∧
    ({ ready with conf := 0xF61E, psconf := 0x0005 } : State).intEnOut = true ∧
    ({ ready with conf := 0xF61E, psconf := 0x0005 } : State).sdOut = false ∧
    ({ ready with conf := 0xF61E, psconf := 0x0005 } : State).psmOut = 2 ∧
    ({ ready with conf := 0xF61E, psconf := 0x0005 } : State).psmEnOut = true := by decide

/-- A faulted step makes a run no good one (60_exceptions.md R143). -/
theorem test_good_run :
    goodRun 1 (unbound.present 0x210000000000 (pins 0)) = false ∧ goodRun 1 (ready.present 0x210000000000 (pins 0)) = true := by
  decide

/-! ### Witnesses: the hypotheses of each statement can be met together -/

/-- `ready` with a bad verdict on its pins. -/
def badly : State := { ready with env := pins 2 }

/-- `ready` before a transport that does not answer. -/
def silent : State := { ready with env := { pins 0 with answers := false } }

/-- A fresh, Bound block. -/
def fresh : State := { ready with acc16 := ⟨0, 0⟩, acc8 := ⟨0, 0⟩ }

/-- A block whose transaction is unanswered. -/
def stuck : State := { ready with waiting := true, events := [⟨.read, 0x10, 0x04, 0, 0⟩] }

theorem witness_UnusedBitsAreIgnored :
    decode 0x10F5ABCD0001 = .ok (.setgain 1) ∧ (0x10F5ABCD0001 : CmdWord) &&& Mnemonic.usedBits .setgain = encode (.setgain 1) ∧
    (0x10F5ABCD0001 : CmdWord) &&& 0xFF0000000000 = (0x100000000001 : CmdWord) &&& 0xFF0000000000 := by decide

theorem witness_IllegalCommandExactlyOnReservedOpcodes :
    decodeCommand 0x290000000000 = .error (.illegalCommand 0x29) ∧ reservedOp 0x29 = true ∧ reservedOp 0x28 = false ∧
    reservedOp 0x00 = true ∧ reservedOp 0x01 = false := by decide

theorem witness_AssembledLineIsItsEncoding :
    assemble { op := .command .setpsm, operands := [0xFF] } = .ok [0x1500000000FF] ∧
    assemble { op := .command .setpsm, operands := [0x100] } = .error .operandTooWide := by decide

theorem witness_StepRunsDecodedCommand :
    ∃ (s : State) (w : CmdWord) (e : Env) (rest : List Input) (i : Instr),
      s.waiting = false ∧ s.inputs = .command w e :: rest ∧ decode w = .ok i :=
  ⟨ready.present 0x210000000000 (pins 0), _, _, _, .wakeup, rfl, rfl, by decide⟩

theorem witness_FaultedCommandChangesNothing :
    (∃ (s : State) (w : CmdWord) (e : Env) (rest : List Input) (f : Fault),
      s.waiting = false ∧ s.inputs = .command w e :: rest ∧ ∃ op, decode w = .error (.reservedOp op) ∧ f = .illegalCommand op) ∧
    (∃ (s : State) (w : CmdWord) (e : Env) (rest : List Input) (f : Fault),
      s.waiting = false ∧ s.inputs = .command w e :: rest ∧
      ∃ i, decode w = .ok i ∧ i.needsBound = true ∧ s.bound = false ∧ f = .notBound (opField w)) :=
  ⟨⟨ready.present 0xFF0000000000 (pins 0), _, _, _, _, rfl, rfl, 0xFF, by decide, rfl⟩,
    ⟨unbound.present 0x280000000000 (pins 0), _, _, _, _, rfl, rfl, .getintevt, by decide, rfl, rfl, rfl⟩⟩

theorem witness_NothingPresentedChangesNothing :
    ready.inputs = [] ∧ ∃ rest, ({ ready with inputs := [.idle] } : State).inputs = .idle :: rest := ⟨rfl, _, rfl⟩

theorem witness_RstRestoresEveryElement : ∃ s : State, s.waiting = true ∧ s.inputs = .rst :: [] :=
  ⟨{ stuck with inputs := [.rst] }, rfl, rfl⟩

theorem witness_SilentTransportLeavesBlockWaiting :
    silent.env.answers = false ∧ silent.bound = true ∧
    ({ silent with bound := false } : State).env.answers = false ∧ ({ silent with bound := false } : State).bound = false := by
  decide

theorem witness_OnlyRstEndsAWait :
    ∃ s : State, s.waiting = true ∧ s.inputs ≠ [] ∧ ∀ rest, s.inputs ≠ .rst :: rest :=
  ⟨{ stuck with inputs := [.command 0x010000000000 (pins 0)] }, rfl, by decide, by simp⟩

theorem witness_LoadCommandsReplaceThePair :
    ready.bound = true ∧ ready.env.answers = true ∧ ready.env.terr = 0 := by decide

theorem witness_GenericGetFieldReadsOrIsAbsent : ∃ t, exec (.mgetf8 0x06 1) ready = .next t := ⟨_, rfl⟩

theorem witness_NarrowShiftOfEightOrMoreIsZero :
    8 ≤ (8 : BitVec 4).toNat ∧ 8 ≤ (15 : BitVec 4).toNat ∧ ready.acc8.mask &&& 0x06 = 0x06 := by decide

theorem witness_SetsdComposesTheShutdownBit :
    fresh.bound = true ∧ fresh.env.answers = true ∧ fresh.acc16 = ⟨0, 0⟩ := by decide

theorem witness_ComposerCommandsTouchNoRegister :
    Instr.isComposer (.setgain 1) = true ∧ Instr.isGet (.setgain 1) = false ∧ Instr.isComposer .getgain = true ∧
    Instr.isGet .getgain = true := by decide

theorem witness_DisjointFieldsDoNotDisturb :
    (0x1800 : Word) &&& 0x03C0 = 0 ∧ (0x8000 : Word) &&& 0x0001 = 0 ∧ (0x06 : Byte) &&& 0x01 = 0 := by decide

theorem witness_PresentIffEveryBitIsSpecified :
    (0x1840 : Word) &&& ~~~((0x1800 : Word) ||| 0x03C0) = 0 ∧ (0x87 : Byte) &&& ~~~((0x86 : Byte) ||| 0x01) = 0 ∧ ready.acc16.mask &&& 0x1840 = 0x1840 ∧
    ready.acc16.mask &&& 0x0030 ≠ 0x0030 := by decide

theorem witness_SetsKeepValueInsideMask :
    Instr.mnemonic (.setgain 1) ≠ .mld16 ∧ Instr.mnemonic (.setgain 1) ≠ .mld8 ∧
    ready.acc16.value &&& ~~~ready.acc16.mask = 0 ∧ ready.acc8.value &&& ~~~ready.acc8.mask = 0 ∧
    ∃ t, exec (.setgain 1) ready = .next t := ⟨by decide, by decide, by decide, by decide, _, rfl⟩

theorem witness_BuiltInFieldNeverReadsAsSentinel :
    Instr.getpsmen ∈ [Instr.getgain, .getit, .getpers, .getint, .getsd, .getpsm, .getpsmen] ∧
    ({ ready with acc16 := ⟨0x0FF0, 0x0FF0⟩ } : State).acc16 = ⟨0x0FF0, 0x0FF0⟩ := by decide

theorem witness_MuxChangesOnlyMaskedBits :
    StoredReg.wh ≠ StoredReg.conf ∧ 15 < 16 ∧ (0x00FF : Word) &&& 0xFF00 = 0 ∧
    fresh.bound = true ∧ fresh.env.answers = true ∧ fresh.env.terr = 0 ∧ fresh.acc16.mask = 0 := by decide

theorem witness_RawRegisterAccess :
    7 ≤ (0x07 : Byte).toNat ∧ 7 ≤ (0xFF : Byte).toNat ∧ ready.memRead 0x06 = .ok 0xC123 ∧ ready.memRead 0x07 = .error (.noRegister 0x07) ∧
    ready.memWriteMasked 0x03 0x0006 0x0006 = .ok { ready with psconf := 0xAB07 } ∧
    ready.memWriteMasked 0x04 0 0xFFFF = .error (.readOnlyRegister 0x04) ∧ (0x02 : Byte) ≠ 0x03 := by decide

theorem witness_CommitTakesOneVerdict :
    ready.env.answers = true ∧ ready.env.terr = 0 ∧ badly.env.answers = true ∧ badly.env.terr ≠ 0 := by decide

theorem witness_NotBoundExactlyWhenUnbound :
    Instr.needsBound .getintevt = true ∧ unbound.bound = false ∧
    (∃ f, exec .getintevt unbound = .fault f) ∧ ∃ t, exec .getintevt ready = .next t :=
  ⟨rfl, rfl, ⟨_, rfl⟩, _, rfl⟩

theorem witness_BeginBindsAndMayWake :
    ready.env.answers = true ∧ ready.env.terr = 0 ∧ badly.env.answers = true ∧ badly.env.terr ≠ 0 := by decide

theorem witness_WakeupAndShutdownTouchOneBit :
    unbound.bound = false ∧ (ready.bound = true ∧ ready.env.answers = true ∧ ready.env.terr = 0) ∧
    badly.bound = true ∧ badly.env.answers = true ∧ badly.env.terr ≠ 0 := by decide

theorem witness_ThresholdWritesAreFull :
    unbound.bound = false ∧ (ready.bound = true ∧ ready.env.answers = true ∧ ready.env.terr = 0) ∧
    badly.bound = true ∧ badly.env.answers = true ∧ badly.env.terr ≠ 0 := by decide

theorem witness_SetconfigCommitsAndConsumes :
    unbound.bound = false ∧ (ready.bound = true ∧ ready.env.answers = true ∧ ready.env.terr = 0) ∧
    badly.bound = true ∧ badly.env.answers = true ∧ badly.env.terr ≠ 0 := by decide

theorem witness_SetpsconfigCommitsAndConsumes :
    unbound.bound = false ∧ (ready.bound = true ∧ ready.env.answers = true ∧ ready.env.terr = 0) ∧
    badly.bound = true ∧ badly.env.answers = true ∧ badly.env.terr ≠ 0 := by decide

theorem witness_ChannelReads :
    unbound.bound = false ∧ (ready.bound = true ∧ ready.env.answers = true ∧ ready.env.terr = 0) ∧
    (badly.bound = true ∧ badly.env.answers = true ∧ badly.env.terr ≠ 0) ∧
    ((0x03 : Byte) ≠ 0x04 ∧ (0x03 : Byte) ≠ 0x05) ∧ (0x06 : Byte) ≠ 0x04 ∧ (0x06 : Byte) ≠ 0x05 := by decide

theorem witness_InterruptEventRead :
    unbound.bound = false ∧ (ready.bound = true ∧ ready.env.answers = true ∧ ready.env.terr = 0) ∧
    badly.bound = true ∧ badly.env.answers = true ∧ badly.env.terr ≠ 0 := by decide

theorem witness_ChecksRunInOrder :
    reservedOp (opField 0xFF0000000000) = true ∧ (Instr.needsBound (.getch 0x07) = true ∧ unbound.bound = false) ∧
    (ready.bound = true ∧ (0x07 : Byte) ≠ 0x04 ∧ (0x07 : Byte) ≠ 0x05) ∧
    Instr.needsBound (.getch 0x04) = true ∧ ready.env.answers = true ∧ unbound.env.answers = true := by decide

theorem witness_ResultCodeIsVerdictSuccessOrEight :
    (∃ t r, exec .mclr16 ready = .next t ∧ t.res = some r) ∧ (∃ t r, exec (.getch 0x07) ready = .next t ∧ t.res = some r) ∧
    ∃ t r, exec .wakeup badly = .next t ∧ t.res = some r :=
  ⟨⟨_, _, rfl, rfl⟩, ⟨_, _, rfl, rfl⟩, _, _, rfl, rfl⟩

theorem witness_FiveFieldsCommitKeepsReservedBits :
    fresh.bound = true ∧ fresh.env.answers = true ∧ fresh.env.terr = 0 ∧ fresh.acc16 = ⟨0, 0⟩ := by decide

theorem witness_FullCommitRestoresAfterFailure :
    badly.bound = true ∧ badly.env.answers = true ∧ badly.env.terr ≠ 0 ∧ (pins 0).answers = true ∧ (pins 0).terr = 0 := by decide

theorem witness_PowerSavingFieldsAppearOnOutputs :
    fresh.bound = true ∧ fresh.env.answers = true ∧ fresh.env.terr = 0 ∧ fresh.acc8 = ⟨0, 0⟩ := by decide

theorem witness_CommitIgnoresBitsOutsideMask :
    ({ badly with acc16 := ⟨0xFFFF, 0x0001⟩ } : State).bound = true ∧
    ({ badly with acc16 := ⟨0xFFFF, 0x0001⟩ } : State).env.answers = true := by decide

theorem witness_OnlyNamedCommandsChangeEachElement :
    (∃ t, exec (.beginBind 0x10 true) unbound = .next t) ∧ (∃ t, exec .setpsconfig badly = .next t) ∧
    ∃ t, exec .setconfig silent = .next t := ⟨⟨_, rfl⟩, ⟨_, rfl⟩, _, rfl⟩

theorem witness_PsconfHighByteIsKept :
    (∃ t, exec .setpsconfig ready = .next t) ∧ (∃ t, exec .setpsconfig badly = .next t) ∧
    (∃ t, step ({ ready with inputs := [.rst] } : State) = .next t) ∧
    ∃ t, step (ready.present 0x260000000000 (pins 2)) = .next t := ⟨⟨_, rfl⟩, ⟨_, rfl⟩, ⟨_, rfl⟩, _, rfl⟩

theorem witness_AtMostOneEventPerStep :
    (∃ t, step (ready.present 0x250000000000 (pins 0)) = .next t) ∧
    ∃ t, step (unbound.present 0x200000010010 (pins 0)) = .next t := ⟨⟨_, rfl⟩, _, rfl⟩

theorem witness_BoundIsEnteredByBeginAndLeftByRst :
    (∃ t, step ({ ready with inputs := [.rst] } : State) = .next t ∧ t.bound = false) ∧
    ∃ t, step (unbound.present 0x200000000010 (pins 0)) = .next t ∧ unbound.bound = false ∧ t.bound = true :=
  ⟨⟨_, rfl, rfl⟩, _, rfl, rfl, rfl⟩

theorem witness_StepKeepsInvariant :
    (stuck.Inv ∧ ∃ t, step stuck = .next t) ∧ ready.Inv ∧ ∃ t, step (ready.present 0x260000000000 (pins 0)) = .next t := by
  refine ⟨⟨⟨by decide, by decide, by decide⟩, _, rfl⟩, ⟨by decide, by decide, by decide⟩, _, rfl⟩

theorem witness_NoRunReadsStoredRegisters :
    ∃ t, Host.Core.run Sys2Proof.core 1 (ready.present 0x250000000000 (pins 0)) = .next t := ⟨_, rfl⟩

theorem witness_AddrBeforeBeginReachesNothing :
    (∃ t, unbound.bound = false ∧ exec (.setgain 1) unbound = .next t) ∧
    ∃ t, unbound.bound = false ∧ exec (.beginBind 0x48 true) unbound = .next t := ⟨⟨_, rfl, rfl⟩, _, rfl, rfl⟩

end Sys2Proof.Tests
end

section
/-! The partial-write mux (20_memory.md R44): its corner cases bit by bit, the masked write at a stored register's address, and the commit
of an empty mask. -/

namespace Sys2Proof.Machine

/-! ### The mux -/

/-- An empty mask keeps the old word, whatever the value (20_memory.md R44). -/
@[simp] theorem mux_empty (old v : Word) : mux old v 0x0000#16 = old := by
  simp [mux]

/-- Value bits outside the mask have no effect (20_memory.md R44). -/
theorem mux_and_mask (old v m : Word) : mux old (v &&& m) m = mux old v m := by
  simp [mux, BitVec.and_assoc]

/-- Merging the same pair a second time changes nothing (20_memory.md R44). -/
theorem mux_mux_same (old v m : Word) : mux (mux old v m) v m = mux old v m := by
  apply BitVec.eq_of_getLsbD_eq
  intro i _
  rw [getLsbD_mux (mux old v m), getLsbD_mux old]
  split <;> rfl

/-- Pairs with disjoint masks may be merged in either order: no bit belongs to both (20_memory.md R44). -/
theorem mux_comm_of_disjoint {m1 m2 : Word} (h : m1 &&& m2 = 0) (old v1 v2 : Word) :
    mux (mux old v1 m1) v2 m2 = mux (mux old v2 m2) v1 m1 := by
  apply BitVec.eq_of_getLsbD_eq
  intro i _
  simp only [getLsbD_mux]
  cases h2 : m2.getLsbD i with
  | true => simp [getLsbD_of_disjoint h h2]
  | false => simp

/-! ### The masked write of a stored register -/

/-- A stored register's address selects it (20_memory.md R41). -/
@[simp] theorem storedReg_at?_address (r : StoredReg) : StoredReg.at? r.address = some r := by
  cases r <;> rfl

/-- A masked write at a stored register's address is the merge of that register (20_memory.md R44). -/
theorem memWriteMasked_address (s : State) (r : StoredReg) (v m : Word) :
    s.memWriteMasked r.address v m = .ok (s.mergeStored r v m) := by
  simp [State.memWriteMasked]

/-- Putting a register's own value back changes nothing. -/
@[simp] theorem setStored_stored (s : State) (r : StoredReg) : s.setStored r (s.stored r) = s := by
  cases r <;> rfl

/-- Merging a pair with an empty mask changes nothing (20_memory.md R44). -/
@[simp] theorem mergeStored_empty (s : State) (r : StoredReg) (v : Word) : s.mergeStored r v 0x0000#16 = s := by
  simp [State.mergeStored]

/-! ### The commit of an empty mask -/

/-- SETCONFIG of a Bound block is the commit of `ACC16` to CONF, which consumes it (41_driver.md R125). -/
theorem exec_setconfig_bound {s : State} (hb : s.bound = true) :
    exec .setconfig s =
      commit s.addr .conf s.acc16.value s.acc16.mask (fun t => t.setAcc16 (freshMrv 16)) s :=
  whenBound_bound hb

/-- A good commit with an empty mask emits its event and changes no register (20_memory.md R44, R47; 41_driver.md R118). -/
theorem commit_empty_success {dev : BitVec 7} {r : StoredReg} {v : Word} {after : State → State} {s : State}
    (ha : s.env.answers = true) (ht : s.env.terr = 0) :
    commit dev r v 0x0000#16 after s = .next ((after (s.emit ⟨.rmw, dev, r.address, v, 0x0000#16⟩)).finish 0 0 false) := by
  rw [commit_success ha ht, mergeStored_empty]
  rfl

end Sys2Proof.Machine
end

section
open Sys2Proof Sys2Proof.Machine

/-- Settles O33: the formula is `MemWriteMasked` at a stored register's address, the corner cases are the mux read bit by bit, and
SETCONFIG with an empty mask is a commit that only emits its event and consumes `ACC16`. -/
theorem muxChangesOnlyMaskedBits : Obligations.MuxChangesOnlyMaskedBits := by
  refine ⟨fun s r v m => ⟨memWriteMasked_address s r v m, ?others, ?bits⟩,
    fun old v m => ⟨mux_full old v, mux_empty old v, mux_and_mask old v m, mux_mux_same old v m⟩,
    fun old v1 m1 v2 m2 h => mux_comm_of_disjoint h old v1 v2, ?emptyCommit⟩
  case others =>
    intro q hq
    rw [stored_mergeStored, if_neg hq.symm]
  case bits =>
    intro k _
    rw [stored_mergeStored, if_pos rfl, getLsbD_mux]
  case emptyCommit =>
    intro s hb ha ht hm
    rw [exec_setconfig_bound hb, hm]
    exact commit_empty_success ha ht

end

section
/-! The command word against its row (30_encoding.md R60 to R63): the word a command assembles to and decodes from, and the bits of a word
that the command reads. -/

namespace Sys2Proof

/-! ### The opcode field -/

/-- A word's opcode survives a cut to any mask that keeps bits [47:40] (30_encoding.md R62). -/
theorem opField_and_of_keepsOp {m : CmdWord} (h : opField m = 0xFF) (w : CmdWord) : opField (w &&& m) = opField w := by
  calc opField (w &&& m) = opField w &&& opField m := BitVec.extractLsb'_and ..
    _ = opField w := by rw [h]; exact BitVec.and_allOnes

/-- Every row reads the whole opcode (30_encoding.md R62). -/
@[simp] theorem opField_usedBits (m : Mnemonic) : opField m.usedBits = 0xFF := by
  cases m <;> rfl

/-- The word of a command carries its row's opcode (30_encoding.md R63). -/
@[simp] theorem opField_encode (i : Instr) : opField (encode i) = i.mnemonic.op := by
  cases i <;> simp [encode, Instr.mnemonic, Mnemonic.op]

/-! ### Decoding against encoding -/

/-- Decoding a word whose opcode is a row's assembles that row's operands (30_encoding.md R61). -/
theorem decode_of_opField {w : CmdWord} {m : Mnemonic} (h : opField w = m.op) : decode w = .ok (m.instr (fieldsOf w)) := by
  simp [decode, h]

/-- The opcode alone fixes the mnemonic a word decodes to, or that there is none (30_encoding.md R62). -/
theorem mnemonic_decode (w : CmdWord) : (decode w).toOption.map Instr.mnemonic = Mnemonic.ofOp (opField w) := by
  obtain ⟨m, hm, hd⟩ | ⟨hm, hd⟩ := decode_cases w
  · simp [hd, hm, Except.toOption]
  · simp [hd, hm, Except.toOption]

/-- A word decodes only to commands of the row its opcode names (30_encoding.md R63). -/
theorem opField_of_decode {w : CmdWord} {i : Instr} (h : decode w = .ok i) : opField w = i.mnemonic.op := by
  have hm := mnemonic_decode w
  rw [h] at hm
  exact (op_of_ofOp hm.symm).symm

/-- Operand assembly reads a command's operands back from its word (30_encoding.md R61). -/
theorem instr_fieldsOf_encode (i : Instr) : i.mnemonic.instr (fieldsOf (encode i)) = i := by
  cases i <;> simp [encode, Instr.mnemonic, Mnemonic.instr]

/-- Decoding the word of a command gives the command back (30_encoding.md R60 to R63). -/
theorem decode_encode (i : Instr) : decode (encode i) = .ok i := by
  rw [decode_of_opField (opField_encode i), instr_fieldsOf_encode]

/-- The flag in bit 0 of a field, widened, is the field cut to that bit (30_encoding.md R61). -/
theorem setWidth_ofBool_getElem_zero (v : Word) : (BitVec.ofBool v[0]).setWidth 16 = v &&& 0x0001#16 :=
  (and_0001 v).symm

/-- Encoding what a row reads of a word is that word cut to the row's used bits (30_encoding.md R61, R62). -/
theorem encode_instr_fieldsOf {w : CmdWord} {m : Mnemonic} (h : opField w = m.op) :
    encode (m.instr (fieldsOf w)) = w &&& m.usedBits := by
  rw [← c48_fields w, h]
  cases m <;>
    simp [Mnemonic.instr, Mnemonic.op, Mnemonic.usedBits, encode, c48_and, ← and_00FF, ← and_007F, setWidth_ofBool_getElem_zero]

/-- A word decodes to a command exactly when the bits the command reads are those of its encoding (30_encoding.md R62). -/
theorem decode_eq_ok_iff (w : CmdWord) (i : Instr) : decode w = .ok i ↔ w &&& i.mnemonic.usedBits = encode i := by
  constructor
  · intro h
    have hop := opField_of_decode h
    have hi : i.mnemonic.instr (fieldsOf w) = i := by
      simpa [decode_of_opField hop] using h
    rw [← encode_instr_fieldsOf hop, hi]
  · intro h
    have hop : opField w = i.mnemonic.op := by
      rw [← opField_encode, ← h, opField_and_of_keepsOp (opField_usedBits _)]
    have henc : encode (i.mnemonic.instr (fieldsOf w)) = encode i := (encode_instr_fieldsOf hop).trans h
    calc decode w = .ok (i.mnemonic.instr (fieldsOf w)) := decode_of_opField hop
      _ = decode (encode (i.mnemonic.instr (fieldsOf w))) := (decode_encode _).symm
      _ = .ok i := by rw [henc, decode_encode]

/-! ### The assembler -/

/-- A flag placed as an operand is its one bit, widened (30_encoding.md R61). -/
theorem ofNat_toNat_bool (v : Bool) : BitVec.ofNat 16 v.toNat = (BitVec.ofBool v).setWidth 16 := by
  cases v <;> rfl

/-- The assembler places a command's operands where its encoding has them (30_encoding.md R66). -/
theorem word_operands (i : Instr) : i.mnemonic.word i.operands = encode i := by
  cases i <;>
    simp [Instr.mnemonic, Instr.operands, Mnemonic.word, Mnemonic.fields, Mnemonic.slots, Fields.place, Mnemonic.op, encode,
      ofNat_toNat_bool]

/-- A line whose operands do not match its widths in number is rejected (30_encoding.md R66). -/
theorem assemble_count {l : AsmLine} (h : l.operands.length ≠ l.op.widths.length) : assemble l = .error .operandCount := by
  simp [assemble, AsmLine.check, h]

/-- A line of one operand that fits its field assembles to the words of its expansion (30_encoding.md R66, R68). -/
theorem assemble_one_operand {op : AsmOp} {n k : Nat} (hw : op.widths = [k]) (hn : n < 2 ^ k) :
    assemble { op := op, operands := [n] } =
      .ok ((AsmLine.expand { op := op, operands := [n] }).map (fun p => p.1.word p.2)) := by
  simp [assemble, AsmLine.check, hw, hn]

/-- `BEGIN wakeUp` assembles to BEGIN at the default bus address 0x10 (30_encoding.md R68). -/
theorem assemble_beginDefault (wakeUp : Bool) :
    assemble { op := .beginDefault, operands := [wakeUp.toNat] } = .ok [encode (.beginBind 0x10 wakeUp)] := by
  rw [assemble_one_operand rfl (Bool.toNat_lt wakeUp), ← word_operands (.beginBind 0x10 wakeUp)]
  rfl

/-- `SETCONFIGFULL v` assembles to a full-mask load of `ACC16` and its commit (30_encoding.md R68). -/
theorem assemble_setconfigFull (v : Word) :
    assemble { op := .setconfigFull, operands := [v.toNat] } = .ok [encode (.mld16 v 0xFFFF), encode .setconfig] := by
  rw [assemble_one_operand rfl v.isLt, ← word_operands (.mld16 v 0xFFFF), ← word_operands .setconfig]
  rfl

/-- `SETPSCONFIGFULL v` assembles to a full-mask load of `ACC8` and its commit (30_encoding.md R68). -/
theorem assemble_setpsconfigFull (v : Byte) :
    assemble { op := .setpsconfigFull, operands := [v.toNat] } = .ok [encode (.mld8 v 0xFF), encode .setpsconfig] := by
  rw [assemble_one_operand rfl v.isLt, ← word_operands (.mld8 v 0xFF), ← word_operands .setpsconfig]
  rfl

end Sys2Proof
end

section
open Sys2Proof

/-- Settles O2: encoding what a row reads of a word is the word cut to the row's used bits, and decoding undoes encoding; the mnemonic
is the row the opcode field selects. -/
theorem unusedBitsAreIgnored : Obligations.UnusedBitsAreIgnored := by
  refine ⟨decode_eq_ok_iff, ?opcodeAlone⟩
  case opcodeAlone =>
    intro w w' h
    have hmask : opField 0xFF0000000000 = 0xFF := by decide
    have hop : opField w = opField w' := by
      rw [← opField_and_of_keepsOp hmask w, h, opField_and_of_keepsOp hmask]
    rw [mnemonic_decode, mnemonic_decode, hop]

/-- Settles O7: each expansion's words are the encodings of its commands, and the rejected forms of BEGIN have an operand too few. -/
theorem pseudoInstructionsExpand : Obligations.PseudoInstructionsExpand :=
  ⟨assemble_beginDefault, assemble_setconfigFull, assemble_setpsconfigFull,
    assemble_count (by decide), assemble_count (by decide), fun _ => assemble_count (by simp [AsmOp.widths, Mnemonic.slots])⟩

end

section
/-! What the composer commands answer, written out as states (40_composer.md R80 to R107): the two field functions at their corner cases,
and one equation for each shared form of Machine/Composer.lean. -/

namespace Sys2Proof.Machine

/-- A word written out with a row's opcode decodes to that row's command (30_encoding.md R61 to R63). -/
theorem decode_c48_op (m : Mnemonic) (rsv sh : BitVec 4) (b a : Word) :
    decode (c48 m.op rsv sh b a) = .ok (m.instr { a := a, b := b, sh := sh }) :=
  decode_c48 m.op rsv sh b a rfl

/-! ### Inserting a field -/

/-- No bit is lost by forming the shift at the width itself: bits it moves out of the width lie outside the mask (40_composer.md R82). -/
theorem fieldInsert_eq_shiftLeft_and {w : Nat} (hw : w ≤ 32) (fv fm : BitVec w) (sh : BitVec 4) :
    fieldInsert fv fm sh = (fv <<< sh.toNat) &&& fm := by
  apply BitVec.eq_of_getLsbD_eq
  intro i hi
  rw [getLsbD_fieldInsert hw, BitVec.getLsbD_and, BitVec.getLsbD_shiftLeft, decide_eq_true hi]
  by_cases hs : sh.toNat ≤ i
  · simp [hs, Nat.not_lt.mpr hs, Bool.and_comm]
  · simp [hs, Nat.lt_of_not_le hs]

/-- A set with an empty mask changes no accumulator (40_composer.md R82). -/
@[simp] theorem setField_empty {w : Nat} (r : Mrv w) (fv : BitVec w) (sh : BitVec 4) : setField r fv 0#w sh = r := by
  simp [setField, fieldInsert]

/-- A set with a full mask and no shift loads a full value (40_composer.md R82). -/
theorem setField_full {w : Nat} (hw : w ≤ 32) (r : Mrv w) (fv : BitVec w) :
    setField r fv (BitVec.allOnes w) 0 = ⟨fv, BitVec.allOnes w⟩ := by
  simp [setField, fieldInsert_eq_shiftLeft_and hw]

/-- Only those bits of an operand matter that the shift brings under the mask: one that keeps them all inserts the same
(40_composer.md R82). -/
theorem fieldInsert_and_of_covers {w : Nat} (hw : w ≤ 32) {fm low : BitVec w} {sh : BitVec 4}
    (h : low <<< sh.toNat &&& fm = fm) (fv : BitVec w) : fieldInsert (fv &&& low) fm sh = fieldInsert fv fm sh := by
  calc fieldInsert (fv &&& low) fm sh
      = (fv <<< sh.toNat) &&& (low <<< sh.toNat &&& fm) := by
        rw [fieldInsert_eq_shiftLeft_and hw, BitVec.shiftLeft_and_distrib, BitVec.and_assoc]
    _ = fieldInsert fv fm sh := by rw [h, fieldInsert_eq_shiftLeft_and hw]

/-! ### Reading a field -/

/-- A field cut out of a value is at most its mask, shifted down (40_composer.md R83). -/
theorem toNat_and_ushiftRight_le {w : Nat} (v fm : BitVec w) (k : Nat) : ((v &&& fm) >>> k).toNat ≤ (fm >>> k).toNat := by
  rw [BitVec.ushiftRight_and_distrib, BitVec.toNat_and]
  exact Nat.and_le_right

/-- The data of a field of `ACC8`, present or absent, is at most 0x00FF (40_composer.md R83, R93). -/
theorem getField_narrow_data_le (r : Mrv 8) (fm : Byte) (sh : BitVec 4) : (getField r fm sh).data.toNat ≤ 0x00FF := by
  by_cases h : r.mask &&& fm = fm
  · rw [getField_present h, BitVec.toNat_setWidth_of_le (by decide)]
    exact Nat.le_of_lt_succ (BitVec.isLt _)
  · rw [getField_absent h]
    decide

/-- The results of a get-field command: the field's value with `res_present` 1, or the sentinel with `res_present` 0
(40_composer.md R83). -/
theorem finish_getField (s : State) {w : Nat} (r : Mrv w) (fm : BitVec w) (sh : BitVec 4) :
    s.finish 0 (getField r fm sh).data (getField r fm sh).present =
      { s with res := some (if r.mask &&& fm ≠ fm then ⟨0, 0x00FF, false, 0⟩
                            else ⟨0, ((r.value &&& fm) >>> sh.toNat).setWidth 16, true, 0⟩) } := by
  by_cases h : r.mask &&& fm = fm
  · rw [getField_present h, if_neg (not_not_intro h)]
    rfl
  · rw [getField_absent h, if_pos h]
    rfl

/-! ### The shared forms -/

/-- A set-field command on `ACC16` answers the pair of the set-field function (40_composer.md R82, R90). -/
theorem setWide_of_setField {fv : Word} (fm : Word) (sh : BitVec 4) {s : State} {r : Mrv 16} (h : setField s.acc16 fv fm sh = r) :
    setWide fv fm sh s = .next { s with acc16 := r, res := some ⟨0, 0x0000, false, 0⟩ } := by
  rw [setWide, h]
  rfl

/-- A set-field command on `ACC8` answers the pair of the set-field function (40_composer.md R82, R91). -/
theorem setNarrow_of_setField {fv : Byte} (fm : Byte) (sh : BitVec 4) {s : State} {r : Mrv 8} (h : setField s.acc8 fv fm sh = r) :
    setNarrow fv fm sh s = .next { s with acc8 := r, res := some ⟨0, 0x0000, false, 0⟩ } := by
  rw [setNarrow, h]
  rfl

/-- A get-field command on `ACC16` (40_composer.md R83, R92). -/
theorem getWide_eq (fm : Word) (sh : BitVec 4) (s : State) :
    getWide fm sh s = .next { s with
      res := some (if s.acc16.mask &&& fm ≠ fm then ⟨0, 0x00FF, false, 0⟩
                   else ⟨0, (s.acc16.value &&& fm) >>> sh.toNat, true, 0⟩) } := by
  rw [getWide, finish_getField, BitVec.setWidth_eq]

/-- A get-field command on `ACC8` (40_composer.md R83, R93). -/
theorem getNarrow_eq (fm : Byte) (sh : BitVec 4) (s : State) :
    getNarrow fm sh s = .next { s with
      res := some (if s.acc8.mask &&& fm ≠ fm then ⟨0, 0x00FF, false, 0⟩
                   else ⟨0, ((s.acc8.value &&& fm) >>> sh.toNat).setWidth 16, true, 0⟩) } := by
  rw [getNarrow, finish_getField]

/-- An operand of a set on `ACC16` may be cut to the bits that the shift brings under the mask (40_composer.md R94 to R98). -/
theorem setWide_and_of_covers {fm low : Word} {sh : BitVec 4} (h : low <<< sh.toNat &&& fm = fm) (fv : Word) (s : State) :
    setWide (fv &&& low) fm sh s = setWide fv fm sh s := by
  simp only [setWide, setField, fieldInsert_and_of_covers (by decide) h]

/-- An operand of a set on `ACC8` may be cut to the bits that the shift brings under the mask (40_composer.md R99, R100). -/
theorem setNarrow_and_of_covers {fm low : Byte} {sh : BitVec 4} (h : low <<< sh.toNat &&& fm = fm) (fv : Byte) (s : State) :
    setNarrow (fv &&& low) fm sh s = setNarrow fv fm sh s := by
  simp only [setNarrow, setField, fieldInsert_and_of_covers (by decide) h]

/-! ### A load and its commit -/

/-- A value of ones sets every bit under the mask (20_memory.md R44). -/
theorem mux_ones (old m : Word) : mux old 0xFFFF#16 m = old ||| m := by
  apply BitVec.eq_of_getLsbD_eq
  intro i hi
  have hone : (BitVec.allOnes 16).getLsbD i = true := by
    rw [BitVec.getLsbD_allOnes, decide_eq_true hi]
  rw [getLsbD_mux, BitVec.getLsbD_or, show 0xFFFF#16 = BitVec.allOnes 16 from rfl, hone]
  cases m.getLsbD i <;> simp

/-- SETCONFIG of a Bound block with verdict 0 merges `ACC16` into CONF (41_driver.md R125). -/
theorem setconfig_success_conf (s : State) (hb : s.bound = true) (ha : s.env.answers = true) (ht : s.env.terr = 0) :
    ∃ u, exec .setconfig s = .next u ∧ u.conf = mux s.conf s.acc16.value s.acc16.mask :=
  ⟨_, (exec_setconfig_bound hb).trans (commit_success ha ht), rfl⟩

end Sys2Proof.Machine
end

section
open Sys2Proof Sys2Proof.Machine

/-- Settles O16: a clear is the fresh pair in its accumulator. -/
theorem clearCommandsMakeFresh : Obligations.ClearCommandsMakeFresh :=
  ⟨fun _ _ _ _ => ⟨decode_c48_op .mclr16 .., decode_c48_op .mclr8 ..⟩, fun _ => ⟨rfl, rfl⟩⟩

/-- Settles O17: a load is its pair in the accumulator; the example with surplus value bits is the mux of a value of ones. -/
theorem loadCommandsReplaceThePair : Obligations.LoadCommandsReplaceThePair := by
  refine ⟨fun _ _ _ _ => ⟨decode_c48_op .mld16 .., decode_c48_op .mld8 ..⟩,
    fun s => ⟨fun _ _ => rfl, fun _ _ => rfl, rfl, rfl, ?surplus⟩⟩
  case surplus =>
    intro hb ha ht
    obtain ⟨u, hu, hconf⟩ := setconfig_success_conf (s.setAcc16 ⟨0xFFFF, 0x0001⟩).done hb ha ht
    exact ⟨_, u, rfl, hu, hconf.trans (mux_ones s.conf 0x0001)⟩

/-- Settles O18: the commands are the shared forms, and the insert formed at 32 bits is the one formed at the width. -/
theorem genericSetFieldInsertsUnderMask : Obligations.GenericSetFieldInsertsUnderMask := by
  refine ⟨fun _ _ _ _ => ⟨decode_c48_op .msetf16 .., decode_c48_op .msetf8 ..⟩,
    fun _ _ fm sh => setWide_of_setField fm sh rfl, fun _ _ fm sh => setNarrow_of_setField fm sh rfl,
    fieldInsert_eq_shiftLeft_and (by decide), fieldInsert_eq_shiftLeft_and (by decide), ?corners16, ?corners8⟩
  case corners16 =>
    exact fun s v sh => ⟨setWide_of_setField _ _ (setField_empty s.acc16 v sh),
      setWide_of_setField _ _ (setField_full (by decide) s.acc16 v)⟩
  case corners8 =>
    exact fun s v sh => ⟨setNarrow_of_setField _ _ (setField_empty s.acc8 v sh),
      setNarrow_of_setField _ _ (setField_full (by decide) s.acc8 v)⟩

/-- Settles O19: the commands are the shared forms of get-field. -/
theorem genericGetFieldReadsOrIsAbsent : Obligations.GenericGetFieldReadsOrIsAbsent := by
  refine ⟨fun _ _ _ _ => ⟨decode_c48_op .mgetf16 .., decode_c48_op .mgetf8 ..⟩,
    fun s fm sh => getWide_eq fm sh s, fun s fm sh => getNarrow_eq fm sh s, ?bound⟩
  case bound =>
    rintro s _ fm sh ⟨⟩
    exact ⟨_, rfl, getField_narrow_data_le s.acc8 fm sh⟩

/-- Settles O21: each command is the set-field form at its descriptor, whose shifted-up low bits cover the field's mask. -/
theorem typedSetsOfConfigFields : Obligations.TypedSetsOfConfigFields := by
  refine ⟨fun _ _ _ _ => ⟨decode_c48_op .setgain .., decode_c48_op .setit ..,
      decode_c48_op .setpers .., decode_c48_op .setint ..⟩,
    fun s v => ⟨setWide_of_setField fieldGain.mask fieldGain.shift rfl,
      setWide_of_setField fieldIt.mask fieldIt.shift rfl,
      setWide_of_setField fieldPers.mask fieldPers.shift rfl,
      setWide_of_setField fieldIntEn.mask fieldIntEn.shift rfl⟩, ?lowBits⟩
  case lowBits =>
    intro s v
    have hgain : (0x0003#16) <<< fieldGain.shift.toNat &&& fieldGain.mask = fieldGain.mask := by decide
    have hit : (0x000F#16) <<< fieldIt.shift.toNat &&& fieldIt.mask = fieldIt.mask := by decide
    have hpers : (0x0003#16) <<< fieldPers.shift.toNat &&& fieldPers.mask = fieldPers.mask := by decide
    have hint : (0x0001#16) <<< fieldIntEn.shift.toNat &&& fieldIntEn.mask = fieldIntEn.mask := by decide
    exact ⟨(setWide_and_of_covers hgain v s).symm, (setWide_and_of_covers hit v s).symm,
      (setWide_and_of_covers hpers v s).symm, (setWide_and_of_covers hint v s).symm⟩

/-- Settles O23: each command is the set-field form at its descriptor, whose shifted-up low bits cover the field's mask; SETPSMEN's
shift of 0 inserts the masked operand itself. -/
theorem typedSetsOfPsconfFields : Obligations.TypedSetsOfPsconfFields := by
  refine ⟨fun _ _ _ _ => ⟨decode_c48_op .setpsm .., decode_c48_op .setpsmen ..⟩,
    fun s v => ⟨setNarrow_of_setField fieldPsm.mask fieldPsm.shift rfl, ?setpsmen⟩, ?lowBits⟩
  case setpsmen =>
    have hins : fieldInsert v fieldPsmEn.mask fieldPsmEn.shift = v &&& 0x01#8 := by
      simp [fieldInsert_eq_shiftLeft_and, fieldPsmEn]
    exact setNarrow_of_setField fieldPsmEn.mask fieldPsmEn.shift (by rw [setField, hins]; rfl)
  case lowBits =>
    intro s v
    have hpsm : (0x03#8) <<< fieldPsm.shift.toNat &&& fieldPsm.mask = fieldPsm.mask := by decide
    have hpsmen : (0x01#8) <<< fieldPsmEn.shift.toNat &&& fieldPsmEn.mask = fieldPsmEn.mask := by decide
    exact ⟨(setNarrow_and_of_covers hpsm v s).symm, (setNarrow_and_of_covers hpsmen v s).symm⟩

/-- Settles O24: each command is the get-field form at its descriptor, and a field cut out is at most its mask shifted down. -/
theorem typedGetsOfConfigFields : Obligations.TypedGetsOfConfigFields := by
  refine ⟨fun _ _ _ _ => ⟨decode_c48_op .getgain .., decode_c48_op .getit ..,
      decode_c48_op .getpers .., decode_c48_op .getint ..,
      decode_c48_op .getsd ..⟩,
    fun s => ⟨getWide_eq fieldGain.mask fieldGain.shift s, getWide_eq fieldIt.mask fieldIt.shift s,
      getWide_eq fieldPers.mask fieldPers.shift s, getWide_eq fieldIntEn.mask fieldIntEn.shift s,
      getWide_eq fieldSd.mask fieldSd.shift s⟩,
    fun v => ⟨toNat_and_ushiftRight_le v 0x1800 11, toNat_and_ushiftRight_le v 0x03C0 6,
      toNat_and_ushiftRight_le v 0x0030 4, toNat_and_ushiftRight_le v 0x0002 1, toNat_and_ushiftRight_le v 0x0001 0⟩⟩

/-- Settles O25: each command is the get-field form at its descriptor, and a field cut out is at most its mask shifted down. -/
theorem typedGetsOfPsconfFields : Obligations.TypedGetsOfPsconfFields := by
  refine ⟨fun _ _ _ _ => ⟨decode_c48_op .getpsm .., decode_c48_op .getpsmen ..⟩,
    fun s => ⟨getNarrow_eq fieldPsm.mask fieldPsm.shift s, getNarrow_eq fieldPsmEn.mask fieldPsmEn.shift s⟩,
    fun v => ?bounds⟩
  case bounds =>
    rw [BitVec.toNat_setWidth_of_le (by decide), BitVec.toNat_setWidth_of_le (by decide)]
    exact ⟨toNat_and_ushiftRight_le v 0x06 1, toNat_and_ushiftRight_le v 0x01 0⟩

end

section
/-! The checks of one command (60_exceptions.md R144, R145, R147): when the opcode or the Bound check ends it, and what a transaction that
is answered reports. -/

namespace Sys2Proof

/-! ### The opcode check -/

/-- The opcode map has no row for the reserved opcodes, and for no other (30_encoding.md R63, R64). -/
theorem ofOp_eq_none_iff (op : Byte) : Mnemonic.ofOp op = none ↔ reservedOp op = true := by
  revert op
  decide

namespace Machine

/-- Decoding a word raises a fault exactly on a reserved opcode, and the fault is `IllegalCommand` with it (60_exceptions.md R144). -/
theorem decodeCommand_eq_error_iff (w : CmdWord) (f : Fault) :
    decodeCommand w = .error f ↔ reservedOp (opField w) = true ∧ f = .illegalCommand (opField w) := by
  rw [← ofOp_eq_none_iff]
  obtain ⟨m, hm, hd⟩ | ⟨hm, hd⟩ := decode_cases w
  · simp [decodeCommand, hd, hm]
  · simp [decodeCommand, hd, hm, eq_comm]

/-! ### The Bound check -/

/-- The commands that need the Bound state are those of eight rows (60_exceptions.md R145). -/
theorem needsBound_iff_mnemonic (i : Instr) :
    i.needsBound = true ↔
      i.mnemonic ∈ [Mnemonic.wakeup, .shutdown, .setht, .setlt, .setconfig, .setpsconfig, .getch, .getintevt] := by
  cases i <;> simp [Instr.needsBound, Instr.mnemonic]

/-- A command that needs the Bound state begins with the Bound check, at its own opcode (41_driver.md R119). -/
theorem exec_eq_whenBound {i : Instr} (hn : i.needsBound = true) (s : State) :
    ∃ o, exec i s = whenBound i.mnemonic.op s o := by
  cases i <;> cases hn <;> exact ⟨_, rfl⟩

/-- While Unbound, a command that needs the Bound state is `NotBound`, whatever else it would check (60_exceptions.md R145, R147). -/
theorem exec_unbound {i : Instr} {s : State} (hn : i.needsBound = true) (hb : s.bound = false) :
    exec i s = .fault (.notBound i.mnemonic.op) := by
  obtain ⟨o, ho⟩ := exec_eq_whenBound hn s
  rw [ho, whenBound_unbound hb]

/-- A command faults only by the Bound check (60_exceptions.md R145). -/
theorem unbound_of_exec_fault {i : Instr} {s : State} {f : Fault} (h : exec i s = .fault f) :
    i.needsBound = true ∧ s.bound = false ∧ f = .notBound i.mnemonic.op := by
  cases exec_shape i s with
  | wide _ _ ho | narrow _ _ ho | get _ _ _ ho | bind _ _ ho | badChannel _ _ _ _ ho => cases ho.symm.trans h
  | commits _ _ _ _ _ _ ho => exact absurd (ho.symm.trans h) commit_ne_fault
  | reads _ _ _ ho => exact absurd (ho.symm.trans h) readInput_ne_fault
  | unbound hb hi ho =>
    cases ho.symm.trans h
    exact ⟨(needsBound_iff_mnemonic i).mpr hi, hb, rfl⟩

/-! ### The selector check -/

/-- Every selector but the two channels' names no register (41_driver.md R127). -/
theorem channel?_eq_none {ch : Byte} (hw : ch ≠ chWhite) (ha : ch ≠ chAls) : channel? ch = none := by
  rw [channel?, if_neg hw, if_neg ha]

/-- GETCH of a Bound block with a selector that names no channel (41_driver.md R127). -/
theorem exec_getch_badChannel {ch : Byte} {s : State} (hb : s.bound = true) (hc : channel? ch = none) :
    exec (.getch ch) s = .next (s.drawn.finish errChannel s.unspec false) := by
  simp only [exec, execGetch, whenBound_bound hb, hc]

/-! ### The verdict of a transaction -/

/-- A command started in `s` completes with the transport's verdict on `res_err`, having emitted one event (60_exceptions.md R147). -/
def EndsWithVerdict (s : State) (o : StepOutcome) : Prop :=
  ∃ t r, o = .next t ∧ t.res = some r ∧ r.err = s.env.terr ∧ ∃ e, t.events = s.events ++ [e]

/-- What a writing driver command does besides its commit emits no event (41_driver.md R120 to R126). -/
theorem CommitOf.events_after {s : State} {i : Instr} {dev : BitVec 7} {r : StoredReg} {v m : Word} {after : State → State}
    (h : CommitOf s i dev r v m after) (t : State) : (after t).events = t.events := by
  cases h <;> rfl

/-- A writing driver command is its commit (41_driver.md R120 to R126). -/
theorem exec_of_commitOf {s : State} {i : Instr} {dev : BitVec 7} {r : StoredReg} {v m : Word} {after : State → State}
    (h : CommitOf s i dev r v m after) : exec i s = commit dev r v m after s := by
  cases h with
  | begin => rfl
  | wakeup hb | shutdown hb | setht hb | setlt hb | setconfig hb | setpsconfig hb => exact whenBound_bound hb

/-- A reading driver command is its read, once Bound (41_driver.md R127, R128). -/
theorem exec_of_readOf {s : State} {i : Instr} {r : InputReg} (h : ReadOf i r) (hb : s.bound = true) :
    exec i s = readInput r s := by
  cases h <;> exact whenBound_bound hb

/-- A writing driver command that the transport answers ends with the verdict (41_driver.md R118). -/
theorem endsWithVerdict_of_commitOf {s : State} {i : Instr} {dev : BitVec 7} {r : StoredReg} {v m : Word} {after : State → State}
    (h : CommitOf s i dev r v m after) (ha : s.env.answers = true) : EndsWithVerdict s (exec i s) := by
  rw [exec_of_commitOf h, commit, if_pos ha]
  exact ⟨_, _, rfl, rfl, rfl, commitEvent dev r v m, by simp [h.events_after]⟩

/-- A reading driver command that the transport answers ends with the verdict (20_memory.md R50). -/
theorem endsWithVerdict_of_readOf {s : State} {i : Instr} {r : InputReg} (h : ReadOf i r) (hb : s.bound = true)
    (ha : s.env.answers = true) : EndsWithVerdict s (exec i s) := by
  rw [exec_of_readOf h hb]
  by_cases ht : s.env.terr = 0
  · exact ⟨_, _, readInput_success ha ht, rfl, ht.symm, readEvent s.addr r, rfl⟩
  · exact ⟨_, _, readInput_failure ha ht, rfl, rfl, readEvent s.addr r, rfl⟩

/-- Past the Bound check and the selector check, a command that needs the Bound state ends with its transaction's verdict
(60_exceptions.md R147). -/
theorem endsWithVerdict_of_needsBound {i : Instr} {s : State} (hn : i.needsBound = true) (hb : s.bound = true)
    (hch : ∀ ch, i = .getch ch → ch = 0x04 ∨ ch = 0x05) (ha : s.env.answers = true) : EndsWithVerdict s (exec i s) := by
  cases i
  case wakeup => exact endsWithVerdict_of_commitOf (.wakeup hb) ha
  case shutdown => exact endsWithVerdict_of_commitOf (.shutdown hb) ha
  case setht v => exact endsWithVerdict_of_commitOf (.setht hb v) ha
  case setlt v => exact endsWithVerdict_of_commitOf (.setlt hb v) ha
  case setconfig => exact endsWithVerdict_of_commitOf (.setconfig hb) ha
  case setpsconfig => exact endsWithVerdict_of_commitOf (.setpsconfig hb) ha
  case getch ch =>
    obtain rfl | rfl := hch ch rfl
    · exact endsWithVerdict_of_readOf .white hb ha
    · exact endsWithVerdict_of_readOf .als hb ha
  case getintevt => exact endsWithVerdict_of_readOf .intstat hb ha
  all_goals cases hn

end Machine

end Sys2Proof
end

section
open Sys2Proof Sys2Proof.Machine

/-- Settles O4: decoding errs exactly where the opcode map has no row, and those opcodes are counted. -/
theorem illegalCommandExactlyOnReservedOpcodes : Obligations.IllegalCommandExactlyOnReservedOpcodes := by
  refine ⟨fun w => ?iff, fun w f h => ?only, ?count⟩
  case iff => simp [decodeCommand_eq_error_iff]
  case only => exact ((decodeCommand_eq_error_iff w f).mp h).2
  case count => rfl

/-- Settles O36: of the shapes of a command's outcome only the failed Bound check is a fault. -/
theorem notBoundExactlyWhenUnbound : Obligations.NotBoundExactlyWhenUnbound := by
  intro i s f
  refine ⟨unbound_of_exec_fault, ?_⟩
  rintro ⟨hn, hb, rfl⟩
  exact exec_unbound hn hb

/-- Settles O44: one lemma for each of the four checks, in the rule's order. -/
theorem checksRunInOrder : Obligations.ChecksRunInOrder := by
  refine ⟨fun w hw => (decodeCommand_eq_error_iff w _).mpr ⟨hw, rfl⟩, fun _ _ => exec_unbound, ?selector, ?transaction⟩
  case selector =>
    intro s ch hb hw ha
    exact ⟨_, _, exec_getch_badChannel hb (channel?_eq_none hw ha), rfl, rfl, rfl, rfl⟩
  case transaction =>
    rintro i s (⟨hn, hb⟩ | ⟨address, rfl⟩) hch ha
    · exact endsWithVerdict_of_needsBound hn hb hch ha
    · exact endsWithVerdict_of_commitOf (.begin address) ha

end

section
/-! The assembler's checks of a line, and the numbers of R60's format (30_encoding.md R60, R66). -/

namespace Sys2Proof

/-! ### The checks of a line -/

/-- The law of each command about its word, for every command (30_encoding.md R60 to R63, R66). -/
theorem encodeForm (i : Instr) : Laws.EncodeForm.Statement i := by
  open Laws.EncodeForm in
  cases i
  exacts [mclr16, mclr8, mld16 _ _, mld8 _ _, msetf16 _ _ _, msetf8 _ _ _, mgetf16 _ _, mgetf8 _ _,
    setgain _, setit _, setpers _, setint _, setsd _, setpsm _, setpsmen _,
    getgain, getit, getpers, getint, getsd, getpsm, getpsmen,
    beginBind _ _, wakeup, shutdown, setht _, setlt _, setconfig, setpsconfig, getch _, getintevt]

/-- Every command is well formed: its operands have their field's width by type (30_encoding.md R66). -/
theorem wellFormed_of_instr (i : Instr) : i.wellFormed = true := (encodeForm i).1

/-- The assembler accepts a line exactly when it has as many operands as it takes, each of its width (30_encoding.md R66). -/
theorem check_eq_ok_iff (l : AsmLine) :
    l.check = .ok () ↔ l.operands.length = l.op.widths.length ∧ ∀ p ∈ l.operands.zip l.op.widths, p.1 < 2 ^ p.2 := by
  unfold AsmLine.check
  by_cases hlen : l.operands.length = l.op.widths.length
  · by_cases hfit : ∀ p ∈ l.operands.zip l.op.widths, p.1 < 2 ^ p.2 <;> simp [hlen]
  · simp [hlen]

/-- A well-formed line passes the assembler's checks. -/
theorem check_of_wellFormed {l : AsmLine} (h : l.wellFormed = true) : l.check = .ok () := by
  unfold AsmLine.wellFormed at h
  cases hc : l.check with
  | ok u => rfl
  | error e =>
    rw [hc] at h
    cases h

/-- A line that passes the checks assembles to the words of its expansion (30_encoding.md R66). -/
theorem assemble_of_check {l : AsmLine} (h : l.check = .ok ()) :
    assemble l = .ok (l.expand.map (fun p => p.1.word p.2)) := by
  simp [assemble, h]

/-- A line assembles exactly when it passes the checks (30_encoding.md R66). -/
theorem assemble_isOk_iff (l : AsmLine) : (∃ ws, assemble l = .ok ws) ↔ l.check = .ok () := by
  constructor
  · rintro ⟨ws, h⟩
    cases hc : l.check with
    | ok u => rfl
    | error e => simp [assemble, hc] at h
  · exact fun h => ⟨_, assemble_of_check h⟩

/-- The line that writes a command assembles to the command's one word (30_encoding.md R66). -/
theorem assemble_line (i : Instr) : assemble i.line = .ok [encode i] := by
  rw [assemble_of_check (check_of_wellFormed (wellFormed_of_instr i)), ← word_operands i]
  rfl

/-! ### The format C48 -/

/-- Appending puts the low part under the shifted-up high part, at any width that the whole is brought to. -/
theorem setWidth_append_eq_shiftLeft_or {n m : Nat} (k : Nat) (x : BitVec n) (y : BitVec m) :
    (x ++ y).setWidth k = x.setWidth k <<< m ||| y.setWidth k := by
  apply BitVec.eq_of_getLsbD_eq
  intro i hi
  rw [BitVec.getLsbD_setWidth, BitVec.getLsbD_append, BitVec.getLsbD_or, BitVec.getLsbD_shiftLeft, BitVec.getLsbD_setWidth,
    BitVec.getLsbD_setWidth]
  by_cases him : i < m
  · simp [hi, him]
  · simp [hi, him, show i - m < k by omega, BitVec.getLsbD_of_ge y i (by omega)]

/-- A command word is the number of R60's formula (30_encoding.md R60). -/
theorem c48_eq_shifted_or (op : Byte) (rsv sh : BitVec 4) (b a : Word) :
    c48 op rsv sh b a = op.setWidth 48 <<< 40 ||| rsv.setWidth 48 <<< 36 ||| sh.setWidth 48 <<< 32 |||
      b.setWidth 48 <<< 16 ||| a.setWidth 48 := by
  calc c48 op rsv sh b a = (op ++ rsv ++ sh ++ b ++ a).setWidth 48 := (BitVec.setWidth_eq _).symm
    _ = _ := by simp only [setWidth_append_eq_shiftLeft_or, BitVec.shiftLeft_or_distrib, ← BitVec.shiftLeft_add]

end Sys2Proof
end

section
open Sys2Proof

/-- Settles O1: the laws of the commands' words give the assembler's checks, and operand assembly undoes encoding. -/
theorem decodeEncodeRoundTrip : Obligations.DecodeEncodeRoundTrip :=
  fun i => ⟨wellFormed_of_instr i, decode_encode i⟩

/-- Settles O3: the formula bit by bit, and the decoder's fields of a word made of its fields. -/
theorem commandWordLayout : Obligations.CommandWordLayout :=
  ⟨fun op rsv sh b a => ⟨c48_eq_shifted_or op rsv sh b a, opField_c48 .., rsvField_c48 .., shField_c48 ..,
    bField_c48 .., aField_c48 ..⟩, by decide⟩

/-- Settles O6: a command's line passes the checks, so it assembles to its one word; any line assembles exactly when it passes them. -/
theorem assembledLineIsItsEncoding : Obligations.AssembledLineIsItsEncoding :=
  ⟨assemble_line, fun l => (assemble_isOk_iff l).trans (check_eq_ok_iff l)⟩

/-- Settles O5: each word's opcode selects its row, and the row's operands are the word's fields. -/
theorem sampleWordsDecode : Obligations.SampleWordsDecode := by
  unfold Obligations.SampleWordsDecode
  decide

end

section
/-! What one step does, by what the port shows (30_encoding.md R65; 60_exceptions.md R143; 70_reset_and_hazards.md R160, R170), and what
a step that answers a next state can have done. -/

namespace Sys2Proof.Machine

/-! ### A step, by what the port shows -/

/-- Where nothing is presented the stream moves on and the old results go (30_encoding.md R65). -/
theorem step_of_offered_idle {s : State} (h : s.offered = .idle) : step s = .next s.consume := by
  simp only [step, portAction, h]

/-- `rst` resets the block, a waiting one too (70_reset_and_hazards.md R160). -/
theorem step_of_offered_rst {s : State} (h : s.offered = .rst) : step s = .next s.consume.resetBlock := by
  simp only [step, portAction, h]

/-- A waiting block lets everything but `rst` pass (70_reset_and_hazards.md R170). -/
theorem step_of_waiting {s : State} (hw : s.waiting = true) (h : s.offered ≠ .rst) : step s = .next s.consume := by
  cases ho : s.offered with
  | idle => exact step_of_offered_idle ho
  | rst => exact absurd ho h
  | command w e => simp only [step, portAction, ho, hw, if_true]

section

variable {s : State} {w : CmdWord} {e : Env} {rest : List Input}

/-- A ready block accepts the word at the head of the stream and samples the pins it comes with (30_encoding.md R65). -/
theorem portAction_of_command (hw : s.waiting = false) (hi : s.inputs = .command w e :: rest) :
    portAction s = .run w { s with inputs := rest, res := none, env := e } := by
  simp [portAction, State.offered, hi, hw, State.consume, State.sample]

/-- A ready block runs the command of the word it is shown (00_scope.md R9). -/
theorem step_of_decode_ok (hw : s.waiting = false) (hi : s.inputs = .command w e :: rest) {i : Instr} (hd : decode w = .ok i) :
    step s = deliver { s with inputs := rest, res := none, env := e } (exec i { s with inputs := rest, res := none, env := e }) := by
  simp only [step, portAction_of_command hw hi, decodeCommand, hd]

/-- A ready block reports a word without a command as `IllegalCommand` (60_exceptions.md R144). -/
theorem step_of_decode_error (hw : s.waiting = false) (hi : s.inputs = .command w e :: rest) {op : Byte}
    (hd : decode w = .error (.reservedOp op)) :
    step s = .next (State.reportFault { s with inputs := rest, res := none, env := e } (.illegalCommand op)) := by
  simp only [step, portAction_of_command hw hi, decodeCommand, hd, deliver_fault]

end

/-! ### No step is stuck -/

/-- No command is refused: every one answers a next state or a fault (60_exceptions.md R143). -/
theorem exec_ne_refused (i : Instr) (s : State) (r : Refusal) : exec i s ≠ .refused r := by
  intro h
  cases exec_shape i s with
  | wide _ _ ho | narrow _ _ ho | get _ _ _ ho | bind _ _ ho | badChannel _ _ _ _ ho | unbound _ _ ho => cases ho.symm.trans h
  | commits _ _ _ _ _ _ ho =>
    obtain ⟨_, hn⟩ | ⟨_, hn⟩ := commit_cases (ho.symm.trans h) <;> cases hn
  | reads _ _ _ ho =>
    obtain ⟨_, _, hn⟩ | ⟨_, _, hn⟩ | ⟨_, hn⟩ := readInput_cases (ho.symm.trans h) <;> cases hn

/-- The end of an accepted command is a next state (60_exceptions.md R143, R148). -/
theorem deliver_exec_next (i : Instr) (s : State) : ∃ t, deliver s (exec i s) = .next t := by
  cases h : exec i s with
  | next t => exact ⟨t, rfl⟩
  | fault f => exact ⟨_, rfl⟩
  | refused r => exact absurd h (exec_ne_refused i s r)

/-- Every state has a next one (60_exceptions.md R143; 70_reset_and_hazards.md R170). -/
theorem step_next (s : State) : ∃ t, step s = .next t := by
  obtain ⟨_, h⟩ | ⟨_, h⟩ | ⟨w, e, _, _, ⟨i, _, h⟩ | ⟨op, _, h⟩⟩ := step_cases (s := s) rfl
  · exact ⟨_, h⟩
  · exact ⟨_, h⟩
  · rw [h]
    exact deliver_exec_next i _
  · exact ⟨_, h⟩

/-! ### What a step can have done -/

/-- What a step from `s` to `t` did. -/
inductive StepForm (s t : State) : Prop
  /-- `rst` was high. -/
  | reset (hi : s.inputs = .rst :: s.inputs.tail) (ht : t = s.consume.resetBlock)
  /-- Nothing was presented, or the block waits. -/
  | pass (ht : t = s.consume)
  /-- A command ran to its own next state. -/
  | ran (w : CmdWord) (e : Env) (i : Instr) (hi : s.inputs = .command w e :: s.inputs.tail) (hw : s.waiting = false)
      (hd : decode w = .ok i) (hx : exec i (s.consume.sample e) = .next t)
  /-- A fault was reported. -/
  | faulted (e : Env) (f : Fault) (hw : s.waiting = false) (ht : t = (s.consume.sample e).reportFault f)

/-- A step that answers a next state did one of four things. -/
theorem stepForm {s t : State} (h : step s = .next t) : StepForm s t := by
  obtain ⟨ho, hn⟩ | ⟨_, hn⟩ | ⟨w, e, ho, hw, ⟨i, hd, hn⟩ | ⟨op, _, hn⟩⟩ := step_cases h
  · cases hn
    exact .reset (inputs_of_offered_rst ho) rfl
  · cases hn
    exact .pass rfl
  · obtain hx | ⟨f, _, ht⟩ := deliver_cases hn.symm
    · exact .ran w e i (inputs_of_offered_command ho) hw hd hx
    · exact .faulted e f hw ht
  · cases hn
    exact .faulted e _ hw rfl

/-! ### What a command can have done to the history -/

/-- The writing driver commands are driver commands, and all but BEGIN run Bound only (41_driver.md R119). -/
theorem CommitOf.driver {s : State} {i : Instr} {dev : BitVec 7} {r : StoredReg} {v m : Word} {after : State → State}
    (h : CommitOf s i dev r v m after) : i.isComposer = false ∧ (s.bound = true ∨ i.mnemonic = .beginBind) := by
  cases h with
  | begin => exact ⟨rfl, .inr rfl⟩
  | wakeup hb | shutdown hb | setht hb | setlt hb | setconfig hb | setpsconfig hb => exact ⟨rfl, .inl hb⟩

/-- The reading driver commands are driver commands. -/
theorem ReadOf.driver {i : Instr} {r : InputReg} (h : ReadOf i r) : i.isComposer = false := by
  cases h <;> rfl

/-- A commit adds its event to the history, answered or not (20_memory.md R47). -/
theorem commit_events {s t : State} {i : Instr} {dev : BitVec 7} {r : StoredReg} {v m : Word} {after : State → State}
    (hi : CommitOf s i dev r v m after) (h : commit dev r v m after s = .next t) :
    t.events = s.events ++ [commitEvent dev r v m] := by
  obtain ⟨_, hn⟩ | ⟨_, hn⟩ := commit_cases h <;> cases hn
  · simp [hi.events_after]
  · simp

/-- A read adds its event to the history, answered or not (20_memory.md R47). -/
theorem readInput_events {s t : State} {r : InputReg} (h : readInput r s = .next t) :
    t.events = s.events ++ [readEvent s.addr r] := by
  obtain ⟨_, _, hn⟩ | ⟨_, _, hn⟩ | ⟨_, hn⟩ := readInput_cases h <;> cases hn <;> rfl

/-- A command leaves the history or adds one event, then it is a driver command, and Bound or BEGIN (20_memory.md section 5). -/
theorem exec_events {i : Instr} {s t : State} (h : exec i s = .next t) :
    t.events = s.events ∨
      (∃ e, t.events = s.events ++ [e]) ∧ i.isComposer = false ∧ (s.bound = true ∨ i.mnemonic = .beginBind) := by
  cases exec_shape i s with
  | wide _ _ ho | narrow _ _ ho | get _ _ _ ho | bind _ _ ho | badChannel _ _ _ _ ho =>
    cases ho.symm.trans h
    exact .inl rfl
  | unbound _ _ ho => cases ho.symm.trans h
  | commits _ _ _ _ _ hi ho => exact .inr ⟨⟨_, commit_events hi (ho.symm.trans h)⟩, hi.driver⟩
  | reads _ hb hi ho => exact .inr ⟨⟨_, readInput_events (ho.symm.trans h)⟩, hi.driver, .inl hb⟩

end Sys2Proof.Machine
end

section
open Sys2Proof Sys2Proof.Machine

/-- Settles O52: of what a step can have done only a command that ran adds an event. -/
theorem atMostOneEventPerStep : Obligations.AtMostOneEventPerStep := by
  intro s t h
  cases stepForm h with
  | reset _ ht | pass ht | faulted _ _ _ ht =>
    subst ht
    exact .inl rfl
  | ran w e i hi hw hd hx =>
    obtain hev | ⟨⟨ev, hev⟩, hc, hb⟩ := exec_events hx
    · exact .inl hev
    · exact .inr ⟨ev, w, e, _, i, hev, hi, hw, hd, hc, hb⟩

/-- Settles O8: the word runs as decoded, and the end of a command shows its fault. -/
theorem stepRunsDecodedCommand : Obligations.StepRunsDecodedCommand := by
  intro s w e rest i hw hi hd
  rw [step_of_decode_ok hw hi hd]
  cases exec i { s with inputs := rest, res := none, env := e } <;> rfl

/-- Settles O9: a word without a command, and a driver command while Unbound, each end in a reported fault. -/
theorem faultedCommandChangesNothing : Obligations.FaultedCommandChangesNothing := by
  rintro s w e rest _ hw hi (⟨op, hd, rfl⟩ | ⟨i, hd, hn, hb, rfl⟩)
  · exact ⟨_, _, step_of_decode_error hw hi hd, rfl, rfl, by simp [State.cmdReady, hw]⟩
  · have hx : exec i { s with inputs := rest, res := none, env := e } = .fault (.notBound (opField w)) := by
      rw [opField_of_decode hd]
      exact exec_unbound hn hb
    have hstep := step_of_decode_ok hw hi hd
    rw [hx, deliver_fault] at hstep
    exact ⟨_, _, hstep, rfl, rfl, by simp [State.cmdReady, hw]⟩

/-- Settles O10: an empty stream offers nothing, as an idle port does. -/
theorem nothingPresentedChangesNothing : Obligations.NothingPresentedChangesNothing := by
  rintro s (hi | ⟨rest, hi⟩)
  · exact step_of_offered_idle (by simp [State.offered, hi])
  · exact step_of_offered_idle (by simp [State.offered, hi])

/-- Settles O12: a step with `rst` high is the reset of the block. -/
theorem rstRestoresEveryElement : Obligations.RstRestoresEveryElement := by
  intro s rest hi
  have ho : s.offered = .rst := by simp [State.offered, hi]
  exact ⟨_, step_of_offered_rst ho, rfl, rfl, rfl, rfl, rfl, rfl, rfl, rfl, rfl, rfl, by simp [hi], rfl, rfl⟩

/-- Settles O14: a waiting block passes whatever the port shows but `rst`. -/
theorem onlyRstEndsAWait : Obligations.OnlyRstEndsAWait := by
  intro s hw hrst
  exact step_of_waiting hw fun ho => hrst _ (inputs_of_offered_rst ho)

/-- Settles O15: no command is refused, and a fault is delivered. -/
theorem stepAlwaysAnswersANextState : Obligations.StepAlwaysAnswersANextState :=
  ⟨step_next, exec_ne_refused⟩

/-- Settles O11: each element stands in the reset state at its value of R36. -/
theorem resetLeavesStatedValues : Obligations.ResetLeavesStatedValues :=
  ⟨rfl, rfl, rfl, rfl, rfl, rfl, rfl, rfl, rfl, rfl⟩

end

section
/-! Which commands may change each element of the state (10_state.md R20, R21, R26 to R32; 20_memory.md R41), and the invariant of the
whole block (20_memory.md R47; 30_encoding.md R67; 70_reset_and_hazards.md R170). -/

namespace Sys2Proof.Machine

/-! ### What a writing driver command does besides its commit -/

section

variable {s : State} {i : Instr} {dev : BitVec 7} {r : StoredReg} {v m : Word} {after : State → State}

/-- It touches no register beyond the commit's (41_driver.md R120 to R126). -/
theorem CommitOf.stored_after (h : CommitOf s i dev r v m after) (t : State) (q : StoredReg) : (after t).stored q = t.stored q := by
  cases h <;> cases q <;> rfl

/-- It touches no port (41_driver.md R120 to R126). -/
theorem CommitOf.ports_after (h : CommitOf s i dev r v m after) (t : State) :
    (after t).env = t.env ∧ (after t).inputs = t.inputs ∧ (after t).waiting = t.waiting := by
  cases h <;> exact ⟨rfl, rfl, rfl⟩

/-- Only SETCONFIG consumes `ACC16` (41_driver.md R125). -/
theorem CommitOf.acc16_after (h : CommitOf s i dev r v m after) (t : State) :
    (after t).acc16 = t.acc16 ∨ (i = .setconfig ∧ (after t).acc16 = freshMrv 16) := by
  cases h with
  | setconfig => exact .inr ⟨rfl, rfl⟩
  | begin | wakeup | shutdown | setht | setlt | setpsconfig => exact .inl rfl

/-- Only SETPSCONFIG consumes `ACC8` (41_driver.md R126). -/
theorem CommitOf.acc8_after (h : CommitOf s i dev r v m after) (t : State) :
    (after t).acc8 = t.acc8 ∨ (i = .setpsconfig ∧ (after t).acc8 = freshMrv 8) := by
  cases h with
  | setpsconfig => exact .inr ⟨rfl, rfl⟩
  | begin | wakeup | shutdown | setht | setlt | setconfig => exact .inl rfl

/-- Only BEGIN binds (10_state.md R31, R32). -/
theorem CommitOf.bound_after (h : CommitOf s i dev r v m after) (t : State) :
    ((after t).bound = t.bound ∧ (after t).addr = t.addr) ∨
      ((after t).bound = true ∧ ∃ address wakeUp, i = .beginBind address wakeUp) := by
  cases h with
  | begin => exact .inr ⟨rfl, dev, true, rfl⟩
  | wakeup | shutdown | setht | setlt | setconfig | setpsconfig => exact .inl ⟨rfl, rfl⟩

end

/-! ### A settled commit, register by register -/

@[simp] theorem stored_emit (s : State) (e : Event) (r : StoredReg) : (s.emit e).stored r = s.stored r := by
  cases r <;> rfl

@[simp] theorem stored_finish (s : State) (err : Byte) (data : Word) (present : Bool) (r : StoredReg) :
    (s.finish err data present).stored r = s.stored r := by
  cases r <;> rfl

@[simp] theorem stored_await (s : State) (r : StoredReg) : s.await.stored r = s.stored r := by
  cases r <;> rfl

/-- A verdict decides over the target register of a commit, and no other register is touched (20_memory.md R49). -/
theorem stored_settle (s : State) (r q : StoredReg) (v m : Word) (terr : Byte) :
    (s.settle r v m terr).stored q =
      if r = q then (if terr = 0 then mux (s.stored r) v m else s.unspec) else s.stored q := by
  obtain ⟨ht, h⟩ | ⟨ht, h⟩ := settle_cases s r v m terr <;> rw [h]
  · rw [stored_mergeStored, if_pos ht]
  · rw [stored_scramble, if_neg ht]

/-- A commit leaves every register but its own (41_driver.md R118). -/
theorem commit_stored_of_ne {s t : State} {i : Instr} {dev : BitVec 7} {r q : StoredReg} {v m : Word} {after : State → State}
    (hi : CommitOf s i dev r v m after) (h : commit dev r v m after s = .next t) (hq : r ≠ q) : t.stored q = s.stored q := by
  obtain ⟨_, hn⟩ | ⟨_, hn⟩ := commit_cases h <;> cases hn
  · rw [stored_finish, hi.stored_after, stored_settle, if_neg hq, stored_emit]
  · rw [stored_await, stored_emit]

/-! ### The elements that a command may change -/

section

variable {i : Instr} {s t : State}

/-- A stored register changes only under a command that commits to it (20_memory.md R41). -/
theorem exec_stored (h : exec i s = .next t) (q : StoredReg) :
    t.stored q = s.stored q ∨ ∃ dev v m after, CommitOf s i dev q v m after := by
  cases exec_shape i s with
  | wide _ _ ho | narrow _ _ ho | get _ _ _ ho | bind _ _ ho | badChannel _ _ _ _ ho =>
    cases ho.symm.trans h
    cases q <;> exact .inl rfl
  | unbound _ _ ho => cases ho.symm.trans h
  | commits dev r v m after hi ho =>
    by_cases hq : r = q
    · subst hq
      exact .inr ⟨dev, v, m, after, hi⟩
    · exact .inl (commit_stored_of_ne hi (ho.symm.trans h) hq)
  | reads _ _ _ ho =>
    obtain ⟨_, _, hn⟩ | ⟨_, _, hn⟩ | ⟨_, hn⟩ := readInput_cases (ho.symm.trans h) <;> cases hn <;> cases q <;> exact .inl rfl

/-- `ACC16` changes only under the set, load and clear commands on it and SETCONFIG, which consumes it (10_state.md R20). -/
theorem exec_acc16 (h : exec i s = .next t) :
    t.acc16 = s.acc16 ∨ (i = .setconfig ∧ t.acc16 = freshMrv 16) ∨ i.mnemonic ∈
      [Mnemonic.mclr16, .mld16, .msetf16, .setgain, .setit, .setpers, .setint, .setsd] := by
  cases exec_shape i s with
  | wide _ hi ho => exact .inr (.inr hi)
  | narrow _ _ ho | get _ _ _ ho | bind _ _ ho | badChannel _ _ _ _ ho =>
    cases ho.symm.trans h
    exact .inl rfl
  | unbound _ _ ho => cases ho.symm.trans h
  | commits _ _ _ _ _ hi ho =>
    obtain ⟨_, hn⟩ | ⟨_, hn⟩ := commit_cases (ho.symm.trans h) <;> cases hn
    · exact (hi.acc16_after _).imp (·.trans (settle_acc16 ..)) .inl
    · exact .inl rfl
  | reads _ _ _ ho =>
    obtain ⟨_, _, hn⟩ | ⟨_, _, hn⟩ | ⟨_, hn⟩ := readInput_cases (ho.symm.trans h) <;> cases hn <;> exact .inl rfl

/-- `ACC8` changes only under the set, load and clear commands on it and SETPSCONFIG, which consumes it (10_state.md R21). -/
theorem exec_acc8 (h : exec i s = .next t) :
    t.acc8 = s.acc8 ∨ (i = .setpsconfig ∧ t.acc8 = freshMrv 8) ∨ i.mnemonic ∈
      [Mnemonic.mclr8, .mld8, .msetf8, .setpsm, .setpsmen] := by
  cases exec_shape i s with
  | narrow _ hi ho => exact .inr (.inr hi)
  | wide _ _ ho | get _ _ _ ho | bind _ _ ho | badChannel _ _ _ _ ho =>
    cases ho.symm.trans h
    exact .inl rfl
  | unbound _ _ ho => cases ho.symm.trans h
  | commits _ _ _ _ _ hi ho =>
    obtain ⟨_, hn⟩ | ⟨_, hn⟩ := commit_cases (ho.symm.trans h) <;> cases hn
    · exact (hi.acc8_after _).imp (·.trans (settle_acc8 ..)) .inl
    · exact .inl rfl
  | reads _ _ _ ho =>
    obtain ⟨_, _, hn⟩ | ⟨_, _, hn⟩ | ⟨_, hn⟩ := readInput_cases (ho.symm.trans h) <;> cases hn <;> exact .inl rfl

/-- BOUND and ADDR change only under BEGIN, and BOUND only to 1 (10_state.md R31, R32). -/
theorem exec_bound (h : exec i s = .next t) :
    (t.bound = s.bound ∧ t.addr = s.addr) ∨ (t.bound = true ∧ ∃ address wakeUp, i = .beginBind address wakeUp) := by
  cases exec_shape i s with
  | wide _ _ ho | narrow _ _ ho | get _ _ _ ho | badChannel _ _ _ _ ho =>
    cases ho.symm.trans h
    exact .inl ⟨rfl, rfl⟩
  | bind address hi ho =>
    cases ho.symm.trans h
    exact .inr ⟨rfl, address, false, hi⟩
  | unbound _ _ ho => cases ho.symm.trans h
  | commits _ _ _ _ _ hi ho =>
    obtain ⟨_, hn⟩ | ⟨_, hn⟩ := commit_cases (ho.symm.trans h) <;> cases hn
    · refine (hi.bound_after _).imp_left fun ⟨hb, ha⟩ => ?_
      exact ⟨hb.trans (settle_bound ..), ha.trans (settle_addr ..)⟩
    · exact .inl ⟨rfl, rfl⟩
  | reads _ _ _ ho =>
    obtain ⟨_, _, hn⟩ | ⟨_, _, hn⟩ | ⟨_, hn⟩ := readInput_cases (ho.symm.trans h) <;> cases hn <;> exact .inl ⟨rfl, rfl⟩

/-- No command changes the sampled pins or the stream (00_scope.md R11; 10_state.md R33). -/
theorem exec_ports (h : exec i s = .next t) : t.env = s.env ∧ t.inputs = s.inputs := by
  cases exec_shape i s with
  | wide _ _ ho | narrow _ _ ho | get _ _ _ ho | bind _ _ ho | badChannel _ _ _ _ ho =>
    cases ho.symm.trans h
    exact ⟨rfl, rfl⟩
  | unbound _ _ ho => cases ho.symm.trans h
  | commits _ _ _ _ _ hi ho =>
    obtain ⟨_, hn⟩ | ⟨_, hn⟩ := commit_cases (ho.symm.trans h) <;> cases hn
    · obtain ⟨henv, hin, _⟩ := hi.ports_after _
      exact ⟨henv.trans (settle_env ..), hin.trans (settle_inputs ..)⟩
    · exact ⟨rfl, rfl⟩
  | reads _ _ _ ho =>
    obtain ⟨_, _, hn⟩ | ⟨_, _, hn⟩ | ⟨_, hn⟩ := readInput_cases (ho.symm.trans h) <;> cases hn <;> exact ⟨rfl, rfl⟩

end

/-! ### The high byte of PSCONF -/

/-- A pair widened from eight bits keeps the high byte of the register it is merged into (20_memory.md R45). -/
theorem extractLsb'_mux_setWidth (old : Word) (v m : Byte) :
    (mux old (v.setWidth 16) (m.setWidth 16)).extractLsb' 8 8 = old.extractLsb' 8 8 := by
  rw [mux_narrow]
  exact BitVec.extractLsb'_append_eq_left

/-- The high byte of PSCONF changes only under a SETPSCONFIG that is answered with a bad verdict (20_memory.md R45, R49). -/
theorem exec_psconf_high {i : Instr} {s t : State} (h : exec i s = .next t) :
    t.psconf.extractLsb' 8 8 = s.psconf.extractLsb' 8 8 ∨
      (i = .setpsconfig ∧ s.env.answers = true ∧ s.env.terr ≠ 0) := by
  obtain hq | ⟨_, _, _, _, hi⟩ := exec_stored h .psconf
  · exact .inl (congrArg (·.extractLsb' 8 8) hq)
  · cases hi with
    | setpsconfig hb =>
      by_cases ha : s.env.answers = true
      · by_cases ht : s.env.terr = 0
        · cases (commit_success ha ht).symm.trans ((exec_of_commitOf (.setpsconfig hb)).symm.trans h)
          exact .inl (extractLsb'_mux_setWidth ..)
        · exact .inr ⟨rfl, ha, ht⟩
      · cases (commit_silent (by simpa using ha)).symm.trans ((exec_of_commitOf (.setpsconfig hb)).symm.trans h)
        exact .inl rfl

/-! ### The invariant -/

/-- A mask widened from eight bits is no full mask (20_memory.md R45). -/
theorem setWidth_ne_FFFF (m : Byte) : (m.setWidth 16 : Word) ≠ 0xFFFF := by
  revert m
  decide

/-- A mask widened from eight bits is no full mask, so its commit is a partial write (20_memory.md R45, R47). -/
theorem commitKind_setWidth (m : Byte) : commitKind (m.setWidth 16) = .rmw :=
  if_neg (setWidth_ne_FFFF m)

/-- A word widened from eight bits has an empty high byte (20_memory.md R45). -/
theorem setWidth_and_FF00 (v : Byte) : v.setWidth 16 &&& 0xFF00#16 = 0#16 := by
  revert v
  decide

/-- Every event that a commit emits is a legal one (20_memory.md R45, R47). -/
theorem CommitOf.legal_event {s : State} {i : Instr} {dev : BitVec 7} {r : StoredReg} {v m : Word} {after : State → State}
    (h : CommitOf s i dev r v m after) : (commitEvent dev r v m).legal = true := by
  cases h with
  | begin | wakeup | shutdown | setht | setlt => rfl
  | setconfig =>
    by_cases hm : s.acc16.mask = 0xFFFF
    · rw [hm]
      rfl
    · rw [commitEvent, commitKind, if_neg hm]
      simpa [Event.legal, StoredReg.address] using hm
  | setpsconfig =>
    rw [commitEvent, commitKind_setWidth]
    simpa [Event.legal, StoredReg.address, setWidth_and_FF00] using setWidth_ne_FFFF s.acc8.mask

/-- Every event that a read emits is a legal one (20_memory.md R47). -/
theorem legal_readEvent (dev : BitVec 7) (r : InputReg) : (readEvent dev r).legal = true := by
  cases r <;> rfl

/-- Results without a present field, and those of a command that succeeds, are legal (30_encoding.md R67). -/
theorem legal_finish (s : State) {err : Byte} {data : Word} {present : Bool} (h : present = false ∨ err = 0) :
    ∀ r ∈ (s.finish err data present).res, r.legal = true := by
  rintro _ ⟨⟩
  obtain rfl | rfl := h
  · rfl
  · cases present <;> rfl

/-- A block that does not wait meets the invariant where its history and its results are legal. -/
theorem inv_of_not_waiting {t : State} (he : ∀ e ∈ t.events, e.legal = true) (hr : ∀ r ∈ t.res, r.legal = true)
    (hw : t.waiting = false) : t.Inv :=
  ⟨he, hr, fun h => absurd h (by simp [hw])⟩

/-- A history keeps legal when a legal event is put at its end. -/
theorem legal_append {es : List Event} {e : Event} (hes : ∀ e ∈ es, e.legal = true) (he : e.legal = true) :
    ∀ e' ∈ es ++ [e], e'.legal = true := by
  simpa [or_imp, forall_and] using ⟨hes, he⟩

/-- A transaction that is not answered leaves a waiting block that meets the invariant (70_reset_and_hazards.md R170). -/
theorem inv_emit_await {s : State} {e : Event} (hs : ∀ e ∈ s.events, e.legal = true) (he : e.legal = true) :
    (s.emit e).await.Inv :=
  ⟨legal_append hs he, by simp, fun _ => ⟨rfl, by simp⟩⟩

/-- A command of a block that does not wait keeps the invariant. -/
theorem exec_inv {i : Instr} {s t : State} (hs : ∀ e ∈ s.events, e.legal = true) (hw : s.waiting = false)
    (h : exec i s = .next t) : t.Inv := by
  cases exec_shape i s with
  | wide _ _ ho | narrow _ _ ho | bind _ _ ho | badChannel _ _ _ _ ho =>
    cases ho.symm.trans h
    exact inv_of_not_waiting hs (legal_finish _ (.inl rfl)) hw
  | get _ _ _ ho =>
    cases ho.symm.trans h
    exact inv_of_not_waiting hs (legal_finish _ (.inr rfl)) hw
  | unbound _ _ ho => cases ho.symm.trans h
  | commits _ _ _ _ _ hi ho =>
    have hev := commit_events hi (ho.symm.trans h)
    obtain ⟨_, hn⟩ | ⟨_, hn⟩ := commit_cases (ho.symm.trans h) <;> cases hn
    · obtain ⟨_, _, hwait⟩ := hi.ports_after _
      exact inv_of_not_waiting (hev ▸ legal_append hs hi.legal_event) (legal_finish _ (.inl rfl))
        (hwait.trans ((settle_waiting ..).trans hw))
    · exact inv_emit_await hs hi.legal_event
  | reads r _ _ ho =>
    have he := legal_readEvent s.addr r
    obtain ⟨_, _, hn⟩ | ⟨_, _, hn⟩ | ⟨_, hn⟩ := readInput_cases (ho.symm.trans h) <;> cases hn
    · exact inv_of_not_waiting (legal_append hs he) (legal_finish _ (.inl rfl)) hw
    · exact inv_of_not_waiting (legal_append hs he) (legal_finish _ (.inl rfl)) hw
    · exact inv_emit_await hs he

/-- The results of a reported fault are legal whatever is drawn beside the code (60_exceptions.md R143). -/
theorem legal_reportFault (s : State) (f : Fault) : ∀ r ∈ (s.reportFault f).res, r.legal = true := by
  rintro _ ⟨⟩
  cases f <;> rfl

end Sys2Proof.Machine
end

section
open Sys2Proof Sys2Proof.Machine

/-- Settles O53: only `rst` and a command that ran can touch BOUND, and of the commands only BEGIN does. -/
theorem boundIsEnteredByBeginAndLeftByRst : Obligations.BoundIsEnteredByBeginAndLeftByRst := by
  intro s t h
  cases stepForm h with
  | reset hi ht =>
    subst ht
    exact ⟨fun _ => .inr ⟨_, hi⟩, fun _ ht => nomatch ht⟩
  | pass ht | faulted _ _ _ ht =>
    subst ht
    exact ⟨.inl, fun hs ht => absurd (hs.symm.trans ht) (by decide)⟩
  | ran w e i hi _ hd hx =>
    obtain ⟨hb, _⟩ | ⟨hb, address, wakeUp, rfl⟩ := exec_bound hx
    · exact ⟨fun hs => .inl (hb.trans hs), fun hs ht => absurd (hs.symm.trans (hb.symm.trans ht)) (by decide)⟩
    · exact ⟨fun _ => .inl hb, fun _ _ => ⟨w, e, _, address, wakeUp, hi, hd⟩⟩

/-- Settles O54: nothing is recorded, delivered or awaited at reset. -/
theorem invariantHoldsAtReset : Obligations.InvariantHoldsAtReset :=
  inv_of_not_waiting (by simp [State.reset, State.resetWith]) (by simp [State.reset, State.resetWith]) rfl

/-- Settles O55: a reset and a pass deliver nothing, a fault is reported by a legal code, and a command that ran keeps the invariant. -/
theorem stepKeepsInvariant : Obligations.StepKeepsInvariant := by
  rintro s t ⟨hev, _, hwait⟩ h
  cases stepForm h with
  | reset _ ht =>
    subst ht
    exact inv_of_not_waiting hev (by simp) rfl
  | pass ht =>
    subst ht
    exact ⟨hev, by simp, fun hw => ⟨rfl, (hwait hw).2⟩⟩
  | ran w e i _ hw _ hx => exact exec_inv (s := s.consume.sample e) hev hw hx
  | faulted e f hw ht =>
    subst ht
    exact inv_of_not_waiting hev (legal_reportFault _ f) hw

/-- Settles O50: one lemma for each element, read off the shapes of a command's outcome. -/
theorem onlyNamedCommandsChangeEachElement : Obligations.OnlyNamedCommandsChangeEachElement := by
  intro i s t h
  obtain ⟨henv, hinputs⟩ := exec_ports h
  refine ⟨?acc16, ?acc8, ?bound, ?addr, ?conf, ?wh, ?wl, ?psconf, ?events, henv, hinputs⟩
  case acc16 =>
    obtain ha | ⟨rfl, _⟩ | hi := exec_acc16 h
    · exact .inl ha
    · exact .inr (by decide)
    · exact .inr (List.mem_append_left [Mnemonic.setconfig] hi)
  case acc8 =>
    obtain ha | ⟨rfl, _⟩ | hi := exec_acc8 h
    · exact .inl ha
    · exact .inr (by decide)
    · exact .inr (List.mem_append_left [Mnemonic.setpsconfig] hi)
  case bound =>
    exact (exec_bound h).imp And.left fun ⟨hb, _, _, hi⟩ => ⟨hi ▸ rfl, hb⟩
  case addr =>
    exact (exec_bound h).imp And.right fun ⟨_, _, _, hi⟩ => hi ▸ rfl
  case conf =>
    refine (exec_stored h .conf).imp_right fun ⟨dev, _, _, _, hi⟩ => ?_
    cases hi with
    | begin => exact .inr ⟨dev, rfl⟩
    | wakeup | shutdown | setconfig => exact .inl (by decide)
  case wh =>
    refine (exec_stored h .wh).imp_right fun ⟨_, _, _, _, hi⟩ => ?_
    cases hi
    rfl
  case wl =>
    refine (exec_stored h .wl).imp_right fun ⟨_, _, _, _, hi⟩ => ?_
    cases hi
    rfl
  case psconf =>
    refine (exec_stored h .psconf).imp_right fun ⟨_, _, _, _, hi⟩ => ?_
    cases hi
    rfl
  case events =>
    exact (exec_events h).imp_right fun ⟨_, hc, _⟩ => hc

/-- Settles O51: SETPSCONFIG alone commits to PSCONF, and with verdict 0 its pair, widened from eight bits, keeps the high byte. -/
theorem psconfHighByteIsKept : Obligations.PsconfHighByteIsKept := by
  refine ⟨fun _ _ _ => exec_psconf_high, ?step⟩
  case step =>
    intro s t h
    cases stepForm h with
    | reset hi _ => exact .inr (.inl ⟨_, hi⟩)
    | pass ht | faulted _ _ _ ht =>
      subst ht
      exact .inl rfl
    | ran w e i hi hw hd hx =>
      refine (exec_psconf_high hx).imp_right fun ⟨hps, ha, ht⟩ => ?_
      exact .inr ⟨w, e, _, hi, hw, hps ▸ hd, ha, ht⟩

end

section
/-! What the composer commands do, the same from every state (40_composer.md R80 to R107): their accumulator, their results, and nothing
that depends on another element. -/

namespace Sys2Proof.Machine

/-! ### The forms of a composer command -/

/-- The operation a composer command is, whatever the state it meets (40_composer.md R82, R83, R86 to R107). -/
inductive ComposerForm (i : Instr) : Prop
  /-- A clear or a load of `ACC16`. -/
  | put16 (r : Mrv 16) (hg : i.isGet = false) (hr : i.mnemonic = .mld16 ∨ r = freshMrv 16)
      (h : ∀ s, exec i s = .next (s.setAcc16 r).done)
  /-- A set-field on `ACC16`. -/
  | set16 (fv fm : Word) (sh : BitVec 4) (hg : i.isGet = false) (h : ∀ s, exec i s = setWide fv fm sh s)
  /-- A get-field on `ACC16`. -/
  | get16 (fm : Word) (sh : BitVec 4) (hg : i.isGet = true) (h : ∀ s, exec i s = getWide fm sh s)
  /-- A clear or a load of `ACC8`. -/
  | put8 (r : Mrv 8) (hg : i.isGet = false) (hr : i.mnemonic = .mld8 ∨ r = freshMrv 8)
      (h : ∀ s, exec i s = .next (s.setAcc8 r).done)
  /-- A set-field on `ACC8`. -/
  | set8 (fv fm : Byte) (sh : BitVec 4) (hg : i.isGet = false) (h : ∀ s, exec i s = setNarrow fv fm sh s)
  /-- A get-field on `ACC8`. -/
  | get8 (fm : Byte) (sh : BitVec 4) (hg : i.isGet = true) (h : ∀ s, exec i s = getNarrow fm sh s)

/-- Every composer command has one of the forms. -/
theorem composerForm {i : Instr} (hc : i.isComposer = true) : ComposerForm i := by
  cases i with
  | mclr16 => exact .put16 _ rfl (.inr rfl) fun _ => rfl
  | mclr8 => exact .put8 _ rfl (.inr rfl) fun _ => rfl
  | mld16 v m => exact .put16 ⟨v, m⟩ rfl (.inl rfl) fun _ => rfl
  | mld8 v m => exact .put8 ⟨v, m⟩ rfl (.inl rfl) fun _ => rfl
  | msetf16 v m sh => exact .set16 v m sh rfl fun _ => rfl
  | msetf8 v m sh => exact .set8 v m sh rfl fun _ => rfl
  | mgetf16 m sh => exact .get16 m sh rfl fun _ => rfl
  | mgetf8 m sh => exact .get8 m sh rfl fun _ => rfl
  | setgain v => exact .set16 v fieldGain.mask fieldGain.shift rfl fun _ => rfl
  | setit v => exact .set16 v fieldIt.mask fieldIt.shift rfl fun _ => rfl
  | setpers v => exact .set16 v fieldPers.mask fieldPers.shift rfl fun _ => rfl
  | setint v => exact .set16 v fieldIntEn.mask fieldIntEn.shift rfl fun _ => rfl
  | setsd v => exact .set16 v fieldSd.mask fieldSd.shift rfl fun _ => rfl
  | setpsm v => exact .set8 v fieldPsm.mask fieldPsm.shift rfl fun _ => rfl
  | setpsmen v => exact .set8 v fieldPsmEn.mask fieldPsmEn.shift rfl fun _ => rfl
  | getgain => exact .get16 fieldGain.mask fieldGain.shift rfl fun _ => rfl
  | getit => exact .get16 fieldIt.mask fieldIt.shift rfl fun _ => rfl
  | getpers => exact .get16 fieldPers.mask fieldPers.shift rfl fun _ => rfl
  | getint => exact .get16 fieldIntEn.mask fieldIntEn.shift rfl fun _ => rfl
  | getsd => exact .get16 fieldSd.mask fieldSd.shift rfl fun _ => rfl
  | getpsm => exact .get8 fieldPsm.mask fieldPsm.shift rfl fun _ => rfl
  | getpsmen => exact .get8 fieldPsmEn.mask fieldPsmEn.shift rfl fun _ => rfl
  | beginBind | wakeup | shutdown | setht | setlt | setconfig | setpsconfig | getch | getintevt => cases hc

/-- The composer commands are the first 22 rows of the opcode map (30_encoding.md R63). -/
theorem isComposer_iff_mem (i : Instr) : i.isComposer = true ↔ i.mnemonic ∈ Mnemonic.all.take 22 := by
  cases i <;> simp [Instr.isComposer, Instr.mnemonic, Mnemonic.all]

/-- A command of some of those rows is a composer command. -/
theorem isComposer_of_mem {i : Instr} {rows : List Mnemonic} (hrows : ∀ m ∈ rows, m ∈ Mnemonic.all.take 22)
    (h : i.mnemonic ∈ rows) : i.isComposer = true :=
  (isComposer_iff_mem i).mpr (hrows _ h)

/-! ### Value bits inside the mask -/

/-- No value bit stands outside the mask (10_state.md R22). -/
def Mrv.Inside {w : Nat} (r : Mrv w) : Prop := r.value &&& ~~~r.mask = 0

/-- A fresh pair has no value bit at all (40_composer.md R81). -/
theorem inside_freshMrv (w : Nat) : (freshMrv w).Inside := by
  simp [Mrv.Inside, freshMrv]

/-- A pair lies inside its mask exactly when each of its value bits does. -/
theorem inside_iff {w : Nat} (r : Mrv w) : r.Inside ↔ ∀ k < w, r.value.getLsbD k = true → r.mask.getLsbD k = true := by
  constructor
  · intro h k hk hv
    have hbit := congrArg (·.getLsbD k) h
    simpa [hk, hv] using hbit
  · intro h
    apply BitVec.eq_of_getLsbD_eq
    intro k hk
    cases hv : r.value.getLsbD k
    · simp [hv]
    · simp [hk, h k hk hv]

/-- A set-field keeps the value inside the mask: it inserts under a mask that it adds (40_composer.md R82). -/
theorem inside_setField {w : Nat} (hw : w ≤ 32) {r : Mrv w} (h : r.Inside) (fv fm : BitVec w) (sh : BitVec 4) :
    (setField r fv fm sh).Inside := by
  rw [inside_iff] at h ⊢
  intro k hk hv
  rw [setField_mask, BitVec.getLsbD_or, Bool.or_eq_true]
  by_cases hm : fm.getLsbD k = true
  · exact .inr hm
  · rw [getLsbD_setField_value hw, if_neg hm] at hv
    exact .inl (h k hk hv)

/-- Every command but MLD16 keeps `ACC16` inside its mask (40_composer.md section 1, law 7). -/
theorem exec_inside16 {i : Instr} {s t : State} (hi : i.mnemonic ≠ .mld16) (hs : s.acc16.Inside) (h : exec i s = .next t) :
    t.acc16.Inside := by
  obtain ha | ⟨_, ha⟩ | hmem := exec_acc16 h
  · exact ha ▸ hs
  · exact ha ▸ inside_freshMrv 16
  · cases composerForm (isComposer_of_mem (by decide) hmem) with
    | put16 r _ hr ho =>
      cases (ho s).symm.trans h
      exact (hr.resolve_left hi) ▸ inside_freshMrv 16
    | set16 fv fm sh _ ho =>
      cases (ho s).symm.trans h
      exact inside_setField (by decide) hs fv fm sh
    | get16 _ _ _ ho | put8 _ _ _ ho | set8 _ _ _ _ ho | get8 _ _ _ ho =>
      cases (ho s).symm.trans h
      exact hs

/-- Every command but MLD8 keeps `ACC8` inside its mask (40_composer.md section 1, law 7). -/
theorem exec_inside8 {i : Instr} {s t : State} (hi : i.mnemonic ≠ .mld8) (hs : s.acc8.Inside) (h : exec i s = .next t) :
    t.acc8.Inside := by
  obtain ha | ⟨_, ha⟩ | hmem := exec_acc8 h
  · exact ha ▸ hs
  · exact ha ▸ inside_freshMrv 8
  · cases composerForm (isComposer_of_mem (by decide) hmem) with
    | put8 r _ hr ho =>
      cases (ho s).symm.trans h
      exact (hr.resolve_left hi) ▸ inside_freshMrv 8
    | set8 fv fm sh _ ho =>
      cases (ho s).symm.trans h
      exact inside_setField (by decide) hs fv fm sh
    | get8 _ _ _ ho | put16 _ _ _ ho | set16 _ _ _ _ ho | get16 _ _ _ ho =>
      cases (ho s).symm.trans h
      exact hs

/-! ### The sentinel -/

/-- The data of a field of at most four bits is the sentinel exactly where the field is absent (40_composer.md R83). -/
theorem getField_sentinel {w : Nat} (hw : w ≤ 16) (r : Mrv w) {fm : BitVec w} {sh : BitVec 4}
    (hle : (fm >>> sh.toNat).toNat ≤ 15) :
    ((getField r fm sh).data = 0x00FF ↔ (getField r fm sh).present = false) ∧
      ((getField r fm sh).present = true → (getField r fm sh).data.toNat ≤ 15) := by
  by_cases h : r.mask &&& fm = fm
  · have hdata : (((r.value &&& fm) >>> sh.toNat).setWidth 16).toNat ≤ 15 := by
      rw [BitVec.toNat_setWidth_of_le hw]
      exact (toNat_and_ushiftRight_le ..).trans hle
    rw [getField_present h]
    refine ⟨⟨fun hd => ?_, nofun⟩, fun _ => hdata⟩
    exact absurd (congrArg BitVec.toNat hd ▸ hdata) (by decide)
  · rw [getField_absent h]
    exact ⟨⟨fun _ => rfl, fun _ => rfl⟩, nofun⟩

/-- A command's results tell an absent field by the sentinel, and its data is at most 15 (40_composer.md section 1, law 8). -/
def SentinelIffAbsent (o : StepOutcome) : Prop :=
  ∃ t r, o = .next t ∧ t.res = some r ∧ (r.data = 0x00FF ↔ r.present = false) ∧ (r.present = true → r.data.toNat ≤ 15)

/-- A get-field on `ACC16` of at most four bits (40_composer.md R101 to R105). -/
theorem getWide_sentinel (s : State) {fm : Word} {sh : BitVec 4} (hle : (fm >>> sh.toNat).toNat ≤ 15) :
    SentinelIffAbsent (getWide fm sh s) :=
  ⟨_, _, rfl, rfl, getField_sentinel (by decide) s.acc16 hle⟩

/-- A get-field on `ACC8` of at most four bits (40_composer.md R106, R107). -/
theorem getNarrow_sentinel (s : State) {fm : Byte} {sh : BitVec 4} (hle : (fm >>> sh.toNat).toNat ≤ 15) :
    SentinelIffAbsent (getNarrow fm sh s) :=
  ⟨_, _, rfl, rfl, getField_sentinel (by decide) s.acc8 hle⟩

/-! ### What does not depend on the stored registers -/

/-- An outcome with its next state changed by `f`. -/
def mapNext (f : State → State) : StepOutcome → StepOutcome
  | .next t => .next (f t)
  | .fault x => .fault x
  | .refused r => .refused r

/-- Two outcomes that differ in the stored registers of the next state at most (70_reset_and_hazards.md R166). -/
def SameButStored (o p : StepOutcome) : Prop := ∃ conf wh wl psconf, p = mapNext (·.withStored conf wh wl psconf) o

section

variable (s : State) (conf wh wl psconf : Word)

/-- A composer command neither reads nor writes a stored register (40_composer.md R80). -/
theorem exec_composer_withStored {i : Instr} (hc : i.isComposer = true) :
    SameButStored (exec i s) (exec i (s.withStored conf wh wl psconf)) := by
  cases composerForm hc with
  | put16 _ _ _ h | set16 _ _ _ _ h | get16 _ _ _ h | put8 _ _ _ h | set8 _ _ _ _ h | get8 _ _ _ h =>
    rw [h, h]
    exact ⟨conf, wh, wl, psconf, rfl⟩

/-- What a verdict makes of a register shows in that register only (20_memory.md R49). -/
theorem settle_withStored (r : StoredReg) (v m : Word) (terr : Byte) :
    ∃ conf' wh' wl' psconf', (s.withStored conf wh wl psconf).settle r v m terr =
      (s.settle r v m terr).withStored conf' wh' wl' psconf' := by
  by_cases ht : terr = 0
  · rw [State.settle, if_pos ht, State.settle, if_pos ht]
    cases r <;> exact ⟨_, _, _, _, rfl⟩
  · rw [State.settle, if_neg ht, State.settle, if_neg ht]
    cases r <;> exact ⟨_, _, _, _, rfl⟩

/-- Which commit a command runs does not depend on the stored registers (41_driver.md R120 to R126). -/
theorem CommitOf.withStored {i : Instr} {dev : BitVec 7} {r : StoredReg} {v m : Word} {after : State → State}
    (h : CommitOf s i dev r v m after) : CommitOf (s.withStored conf wh wl psconf) i dev r v m after := by
  cases h with
  | begin => exact .begin dev
  | wakeup hb => exact .wakeup (s := s.withStored conf wh wl psconf) hb
  | shutdown hb => exact .shutdown (s := s.withStored conf wh wl psconf) hb
  | setht hb => exact .setht (s := s.withStored conf wh wl psconf) hb v
  | setlt hb => exact .setlt (s := s.withStored conf wh wl psconf) hb v
  | setconfig hb => exact .setconfig (s := s.withStored conf wh wl psconf) hb
  | setpsconfig hb => exact .setpsconfig (s := s.withStored conf wh wl psconf) hb

/-- What a command does besides its commit leaves the stored registers alone. -/
theorem CommitOf.after_withStored {i : Instr} {dev : BitVec 7} {r : StoredReg} {v m : Word} {after : State → State}
    (h : CommitOf s i dev r v m after) (t : State) :
    after (t.withStored conf wh wl psconf) = (after t).withStored conf wh wl psconf := by
  cases h <;> rfl

/-- A commit that the transport answers settles its register, then the command does what else it does (41_driver.md R118). -/
theorem commit_answered {s : State} {dev : BitVec 7} {r : StoredReg} {v m : Word} {after : State → State}
    (ha : s.env.answers = true) :
    commit dev r v m after s =
      .next ((after ((s.emit (commitEvent dev r v m)).settle r v m s.env.terr)).finish s.env.terr 0 false) :=
  if_pos ha

/-- A commit reads no stored register but into itself (41_driver.md R118). -/
theorem commit_withStored {i : Instr} {dev : BitVec 7} {r : StoredReg} {v m : Word} {after : State → State}
    (h : CommitOf s i dev r v m after) :
    SameButStored (commit dev r v m after s) (commit dev r v m after (s.withStored conf wh wl psconf)) := by
  by_cases ha : s.env.answers = true
  · obtain ⟨conf', wh', wl', psconf', hs⟩ :=
      settle_withStored (s.emit (commitEvent dev r v m)) conf wh wl psconf r v m s.env.terr
    refine ⟨conf', wh', wl', psconf', ?_⟩
    rw [commit_answered ha, commit_answered (s := s.withStored conf wh wl psconf) ha]
    have hafter : after (((s.emit (commitEvent dev r v m)).withStored conf wh wl psconf).settle r v m s.env.terr) =
        (after ((s.emit (commitEvent dev r v m)).settle r v m s.env.terr)).withStored conf' wh' wl' psconf' := by
      rw [hs, h.after_withStored]
    exact congrArg (fun u => Host.Outcome.next (State.finish u s.env.terr 0 false)) hafter
  · have ha : s.env.answers = false := by simpa using ha
    rw [commit_silent ha, commit_silent (s := s.withStored conf wh wl psconf) ha]
    exact ⟨conf, wh, wl, psconf, rfl⟩

/-- A read answers a pin, never a stored register (20_memory.md R42). -/
theorem readInput_withStored (r : InputReg) :
    SameButStored (readInput r s) (readInput r (s.withStored conf wh wl psconf)) := by
  refine ⟨conf, wh, wl, psconf, ?_⟩
  obtain ⟨ha, ht, h⟩ | ⟨ha, ht, h⟩ | ⟨ha, h⟩ := readInput_cases (r := r) (s := s) rfl <;> rw [h]
  · rw [readInput_success (s := s.withStored conf wh wl psconf) ha ht]
    cases r <;> rfl
  · rw [readInput_failure (s := s.withStored conf wh wl psconf) ha ht]
    rfl
  · rw [readInput_silent (s := s.withStored conf wh wl psconf) ha]
    rfl

/-- Nothing a command does but to the stored registers depends on them (70_reset_and_hazards.md R166). -/
theorem exec_withStored (i : Instr) : SameButStored (exec i s) (exec i (s.withStored conf wh wl psconf)) := by
  cases exec_shape i s with
  | wide _ hi | narrow _ hi | get _ _ hi => exact exec_composer_withStored s conf wh wl psconf (isComposer_of_mem (by decide) hi)
  | bind _ hi =>
    subst hi
    exact ⟨conf, wh, wl, psconf, rfl⟩
  | commits _ _ _ _ _ hi ho =>
    rw [ho, exec_of_commitOf (hi.withStored s conf wh wl psconf)]
    exact commit_withStored s conf wh wl psconf hi
  | reads r hb hi ho =>
    rw [ho, exec_of_readOf (s := s.withStored conf wh wl psconf) hi hb]
    exact readInput_withStored s conf wh wl psconf r
  | badChannel ch hb hi hc ho =>
    subst hi
    rw [ho, exec_getch_badChannel (s := s.withStored conf wh wl psconf) hb hc]
    exact ⟨conf, wh, wl, psconf, rfl⟩
  | unbound hb hi ho =>
    rw [ho, exec_unbound (s := s.withStored conf wh wl psconf) ((needsBound_iff_mnemonic i).mpr hi) hb]
    exact ⟨conf, wh, wl, psconf, rfl⟩

/-- A fault is reported the same whatever the stored registers hold (60_exceptions.md R143). -/
theorem deliver_withStored {o p : StepOutcome} (h : SameButStored o p) :
    SameButStored (deliver s o) (deliver (s.withStored conf wh wl psconf) p) := by
  obtain ⟨conf', wh', wl', psconf', rfl⟩ := h
  cases o with
  | next t => exact ⟨conf', wh', wl', psconf', rfl⟩
  | fault f => exact ⟨conf, wh, wl, psconf, rfl⟩
  | refused r => exact ⟨conf, wh, wl, psconf, rfl⟩

/-- Nothing a step does but to the stored registers depends on them (70_reset_and_hazards.md R166). -/
theorem step_withStored : SameButStored (step s) (step (s.withStored conf wh wl psconf)) := by
  cases ho : s.offered with
  | idle =>
    rw [step_of_offered_idle ho, step_of_offered_idle (s := s.withStored conf wh wl psconf) ho]
    exact ⟨conf, wh, wl, psconf, rfl⟩
  | rst =>
    rw [step_of_offered_rst ho, step_of_offered_rst (s := s.withStored conf wh wl psconf) ho]
    exact ⟨_, _, _, _, rfl⟩
  | command w e =>
    have hi := inputs_of_offered_command ho
    cases hw : s.waiting with
    | true =>
      have hrst : s.offered ≠ .rst := by simp [ho]
      rw [step_of_waiting hw hrst, step_of_waiting (s := s.withStored conf wh wl psconf) hw hrst]
      exact ⟨conf, wh, wl, psconf, rfl⟩
    | false =>
      obtain ⟨m, _, hd⟩ | ⟨_, hd⟩ := decode_cases w
      · rw [step_of_decode_ok hw hi hd, step_of_decode_ok (s := s.withStored conf wh wl psconf) hw hi hd]
        exact deliver_withStored _ conf wh wl psconf (exec_withStored _ conf wh wl psconf _)
      · rw [step_of_decode_error hw hi hd, step_of_decode_error (s := s.withStored conf wh wl psconf) hw hi hd]
        exact ⟨conf, wh, wl, psconf, rfl⟩

end

/-- Over any run, two blocks that differ in the stored registers at most stay so (70_reset_and_hazards.md R166). -/
theorem run_withStored (k : Nat) (s t : State) (conf wh wl psconf : Word) (h : core.run k s = .next t) :
    ∃ u : State, core.run k (s.withStored conf wh wl psconf) = .next u ∧ u.sameButStored t := by
  induction k generalizing s conf wh wl psconf with
  | zero =>
    cases h
    exact ⟨_, rfl, rfl⟩
  | succ k ih =>
    obtain ⟨s₁, hs₁⟩ := step_next s
    obtain ⟨conf', wh', wl', psconf', hu₁⟩ := step_withStored s conf wh wl psconf
    rw [hs₁] at hu₁
    rw [run_succ_next (M := core) k hs₁] at h
    rw [run_succ_next (M := core) k hu₁]
    exact ih s₁ conf' wh' wl' psconf' h

/-! ### What does not depend on ADDR while Unbound -/

/-- While Unbound ADDR shows no value (10_state.md R36). -/
theorem devAddrOut_of_unbound {s : State} (h : s.bound = false) : s.devAddrOut = none := by
  simp [State.devAddrOut, h]

/-- A composer command neither reads nor writes ADDR or BOUND (40_composer.md R80). -/
theorem exec_composer_addr {i : Instr} {s t : State} (hc : i.isComposer = true) (h : exec i s = .next t) (address : BitVec 7) :
    exec i { s with addr := address } = .next { t with addr := address } ∧ t.bound = s.bound := by
  cases composerForm hc with
  | put16 _ _ _ ho | set16 _ _ _ _ ho | get16 _ _ _ ho | put8 _ _ _ ho | set8 _ _ _ _ ho | get8 _ _ _ ho =>
    cases (ho s).symm.trans h
    exact ⟨ho _, rfl⟩

/-- Two next states of commands on an Unbound block show the same but for the value that stands in ADDR while there is none
(10_state.md R36). -/
def SameButHiddenAddr (u t : State) : Prop := u.devAddrOut = t.devAddrOut ∧ { u with addr := t.addr } = t

/-- A block that stays Unbound shows no value of ADDR. -/
theorem sameButHiddenAddr_of_unbound {t : State} (h : t.bound = false) (address : BitVec 7) :
    SameButHiddenAddr { t with addr := address } t :=
  ⟨(devAddrOut_of_unbound (s := { t with addr := address }) h).trans (devAddrOut_of_unbound h).symm, rfl⟩

/-- BEGIN's wake-up write carries the address of its operand, never the one in ADDR (41_driver.md R120). -/
theorem begin_wakeUp_addr {s t : State} {dev : BitVec 7} (hb : s.bound = false) (h : exec (.beginBind dev true) s = .next t)
    (address : BitVec 7) : ∃ u, exec (.beginBind dev true) { s with addr := address } = .next u ∧ SameButHiddenAddr u t := by
  rw [exec_of_commitOf (.begin dev)] at h ⊢
  by_cases ha : s.env.answers = true
  · by_cases ht : s.env.terr = 0
    · cases (commit_success ha ht).symm.trans h
      exact ⟨_, commit_success (s := { s with addr := address }) ha ht, rfl, rfl⟩
    · cases (commit_failure ha ht).symm.trans h
      exact ⟨_, commit_failure (s := { s with addr := address }) ha ht, rfl, rfl⟩
  · have ha : s.env.answers = false := by simpa using ha
    cases (commit_silent ha).symm.trans h
    exact ⟨_, commit_silent (s := { s with addr := address }) ha,
      sameButHiddenAddr_of_unbound (t := (s.emit (commitEvent dev .conf 0 1)).await) hb address⟩

end Sys2Proof.Machine
end

section
open Sys2Proof Sys2Proof.Machine

/-- Settles O56: a step's outcome with other stored registers is its own with other stored registers, so is a run's, by induction on its
length. -/
theorem noRunReadsStoredRegisters : Obligations.NoRunReadsStoredRegisters := run_withStored

/-- Settles O26: each form of a composer command reads and writes its accumulator only. -/
theorem composerCommandsTouchNoRegister : Obligations.ComposerCommandsTouchNoRegister := by
  intro i s hc
  cases composerForm hc with
  | put16 r hg _ h => exact ⟨r, s.acc8, _, fun _ _ => h _, rfl, rfl, fun _ => ⟨rfl, rfl⟩, by simp [hg]⟩
  | set16 fv fm sh hg h =>
    exact ⟨setField s.acc16 fv fm sh, s.acc8, _, fun _ _ => h _, rfl, rfl, fun _ => ⟨rfl, rfl⟩, by simp [hg]⟩
  | get16 fm sh hg h =>
    exact ⟨s.acc16, s.acc8, ⟨0, (getField s.acc16 fm sh).data, (getField s.acc16 fm sh).present, 0⟩, fun _ _ => h _,
      rfl, rfl, by simp [hg], fun _ => ⟨rfl, rfl⟩⟩
  | put8 r hg _ h => exact ⟨s.acc16, r, _, fun _ _ => h _, rfl, rfl, fun _ => ⟨rfl, rfl⟩, by simp [hg]⟩
  | set8 fv fm sh hg h =>
    exact ⟨s.acc16, setField s.acc8 fv fm sh, _, fun _ _ => h _, rfl, rfl, fun _ => ⟨rfl, rfl⟩, by simp [hg]⟩
  | get8 fm sh hg h =>
    exact ⟨s.acc16, s.acc8, ⟨0, (getField s.acc8 fm sh).data, (getField s.acc8 fm sh).present, 0⟩, fun _ _ => h _,
      rfl, rfl, by simp [hg], fun _ => ⟨rfl, rfl⟩⟩

/-- Settles O31: a set inserts under a mask that it adds, a clear or a commit leaves a fresh pair, and nothing else touches one. -/
theorem setsKeepValueInsideMask : Obligations.SetsKeepValueInsideMask :=
  fun _ _ _ h16 h8 hs16 hs8 h => ⟨exec_inside16 h16 hs16 h, exec_inside8 h8 hs8 h⟩

/-- Settles O32: each built-in field has at most four bits, so its data stays below the sentinel. -/
theorem builtInFieldNeverReadsAsSentinel : Obligations.BuiltInFieldNeverReadsAsSentinel := by
  refine ⟨fun i s hi => ?typed, fun s h => ?generic⟩
  case typed =>
    simp only [List.mem_cons, List.not_mem_nil, or_false] at hi
    obtain rfl | rfl | rfl | rfl | rfl | rfl | rfl := hi
    · exact getWide_sentinel s (fm := fieldGain.mask) (sh := fieldGain.shift) (by decide)
    · exact getWide_sentinel s (fm := fieldIt.mask) (sh := fieldIt.shift) (by decide)
    · exact getWide_sentinel s (fm := fieldPers.mask) (sh := fieldPers.shift) (by decide)
    · exact getWide_sentinel s (fm := fieldIntEn.mask) (sh := fieldIntEn.shift) (by decide)
    · exact getWide_sentinel s (fm := fieldSd.mask) (sh := fieldSd.shift) (by decide)
    · exact getNarrow_sentinel s (fm := fieldPsm.mask) (sh := fieldPsm.shift) (by decide)
    · exact getNarrow_sentinel s (fm := fieldPsmEn.mask) (sh := fieldPsmEn.shift) (by decide)
  case generic =>
    refine (getWide_eq 0x0FF0 4 s).trans ?_
    rw [h]
    rfl

/-- Settles O57: no form of a composer command reads ADDR, and of the driver commands only BEGIN runs, which carries its own address. -/
theorem addrBeforeBeginReachesNothing : Obligations.AddrBeforeBeginReachesNothing := by
  intro i s t address hb h
  cases exec_shape i s with
  | wide _ hi | narrow _ hi | get _ _ hi =>
    obtain ⟨hu, htb⟩ := exec_composer_addr (isComposer_of_mem (by decide) hi) h address
    exact ⟨_, hu, sameButHiddenAddr_of_unbound (htb.trans hb) address⟩
  | bind _ hi ho =>
    subst hi
    cases ho.symm.trans h
    exact ⟨_, rfl, rfl, rfl⟩
  | commits _ _ _ _ _ hi ho =>
    cases hi with
    | begin => exact begin_wakeUp_addr hb h address
    | wakeup hb' | shutdown hb' | setht hb' | setlt hb' | setconfig hb' | setpsconfig hb' =>
      exact absurd (hb.symm.trans hb') (by decide)
  | reads _ hb' | badChannel _ hb' => exact absurd (hb.symm.trans hb') (by decide)
  | unbound _ _ ho => cases ho.symm.trans h

end

section
/-! The laws of fields (40_composer.md section 1), at every width: what a set leaves for a get of the same field, of a disjoint one, of an
overlapping one and of a union. -/

namespace Sys2Proof.Machine

variable {w : Nat}

/-! ### The value of a set field, cut to a mask -/

/-- A set puts the moved-up value under its mask (40_composer.md R82). -/
theorem setField_value_and_mask (hw : w ≤ 32) (r : Mrv w) (fv fm : BitVec w) (sh : BitVec 4) :
    (setField r fv fm sh).value &&& fm = (fv <<< sh.toNat) &&& fm := by
  change (r.value &&& ~~~fm ||| fieldInsert fv fm sh) &&& fm = _
  rw [fieldInsert_eq_shiftLeft_and hw]
  apply BitVec.eq_of_getLsbD_eq
  intro i _
  simp only [BitVec.getLsbD_and, BitVec.getLsbD_or, BitVec.getLsbD_not]
  cases fm.getLsbD i <;> simp

/-- A set leaves the value bits under a disjoint mask (40_composer.md section 1, law 2). -/
theorem setField_value_and_of_disjoint (hw : w ≤ 32) {m fm : BitVec w} (h : m &&& fm = 0) (r : Mrv w) (fv : BitVec w)
    (sh : BitVec 4) : (setField r fv fm sh).value &&& m = r.value &&& m := by
  apply BitVec.eq_of_getLsbD_eq
  intro i _
  rw [BitVec.getLsbD_and, BitVec.getLsbD_and, getLsbD_setField_value hw]
  cases hm : fm.getLsbD i
  · simp
  · simp [getLsbD_of_disjoint h hm]

/-- A set leaves the mask bits under a disjoint mask (40_composer.md section 1, law 2). -/
theorem setField_mask_and_of_disjoint {m fm : BitVec w} (h : m &&& fm = 0) (r : Mrv w) (fv : BitVec w) (sh : BitVec 4) :
    (setField r fv fm sh).mask &&& m = r.mask &&& m := by
  rw [setField_mask, BitVec.and_comm, BitVec.and_or_distrib_left, h]
  simp [BitVec.and_comm]

/-- A mask and its complement are disjoint. -/
theorem not_and_self (fm : BitVec w) : ~~~fm &&& fm = 0 := by
  simp [BitVec.and_comm]

/-- What two words share under one mask they share under a smaller one. -/
theorem and_and_congr {x y m : BitVec w} (h : x &&& m = y &&& m) (a : BitVec w) : x &&& a &&& m = y &&& a &&& m := by
  rw [BitVec.and_assoc, BitVec.and_assoc, BitVec.and_comm a m, ← BitVec.and_assoc, ← BitVec.and_assoc, h]

/-! ### A get of the field that was set -/

/-- A field that was set is present, its data what of the value lands inside the mask (40_composer.md section 1, law 1). -/
theorem getField_setField (hw : w ≤ 32) (r : Mrv w) (fv fm : BitVec w) (sh : BitVec 4) :
    getField (setField r fv fm sh) fm sh =
      { present := true, data := (((fv <<< sh.toNat) &&& fm) >>> sh.toNat).setWidth 16 } := by
  have hmask : (setField r fv fm sh).mask &&& fm = fm := by
    rw [and_eq_right_iff]
    intro k _ hk
    simp [hk]
  rw [getField_present hmask, setField_value_and_mask hw]

/-- A value moved up, cut to a mask and moved down: a bit stays where its place lies in the mask. -/
theorem getLsbD_shiftLeft_and_ushiftRight (v m : BitVec w) (n k : Nat) :
    (((v <<< n) &&& m) >>> n).getLsbD k = (v.getLsbD k && m.getLsbD (n + k)) := by
  rw [BitVec.getLsbD_ushiftRight, BitVec.getLsbD_and, BitVec.getLsbD_shiftLeft]
  by_cases h : n + k < w
  · simp [h]
  · rw [BitVec.getLsbD_of_ge m _ (Nat.le_of_not_lt h), Bool.and_false, Bool.and_false]

/-- A value comes back from under a mask exactly when every bit of it, moved up, lies in the mask; the shift is formed at 32 bits, where
no bit of it is lost (40_composer.md section 1, law 1). -/
theorem shiftLeft_and_ushiftRight_eq_iff (hw : w ≤ 16) (v m : BitVec w) (sh : BitVec 4) :
    ((v <<< sh.toNat) &&& m) >>> sh.toNat = v ↔ (v.setWidth 32 <<< sh.toNat) &&& ~~~(m.setWidth 32) = 0 := by
  have hsh : sh.toNat < 16 := sh.isLt
  constructor
  · intro h
    apply BitVec.eq_of_getLsbD_eq
    intro j hj
    by_cases hjs : j < sh.toNat
    · simp [hjs]
    · have hbit := getLsbD_shiftLeft_and_ushiftRight v m sh.toNat (j - sh.toNat)
      rw [h, Nat.add_sub_cancel' (Nat.le_of_not_lt hjs)] at hbit
      cases hm : m.getLsbD j
      · rw [hm, Bool.and_false] at hbit
        simp [hbit]
      · simp [hj, hm]
  · intro h
    apply BitVec.eq_of_getLsbD_eq
    intro k hk
    rw [getLsbD_shiftLeft_and_ushiftRight]
    have hbit := congrArg (·.getLsbD (sh.toNat + k)) h
    have h32 : sh.toNat + k < 32 := by omega
    have hk32 : k < 32 := by omega
    cases hv : v.getLsbD k
    · simp
    · simpa [h32, hk32, hv] using hbit

/-! ### A get of another field -/

/-- A get looks at the bits under its mask only (40_composer.md R83). -/
theorem getField_congr {r r' : Mrv w} {fm : BitVec w} (hm : r'.mask &&& fm = r.mask &&& fm)
    (hv : r'.value &&& fm = r.value &&& fm) (sh : BitVec 4) : getField r' fm sh = getField r fm sh := by
  unfold getField
  rw [hm, hv]

/-- A set changes no get of a disjoint field (40_composer.md section 1, law 2). -/
theorem getField_setField_of_disjoint (hw : w ≤ 32) {mA mB : BitVec w} (h : mA &&& mB = 0) (r : Mrv w) (fv : BitVec w)
    (shA shB : BitVec 4) : getField (setField r fv mB shB) mA shA = getField r mA shA :=
  getField_congr (setField_mask_and_of_disjoint h r fv shB) (setField_value_and_of_disjoint hw h r fv shB) shA

/-! ### Presence -/

/-- A field is present exactly when each of its bits is specified (40_composer.md R83). -/
theorem present_getField_iff (r : Mrv w) (fm : BitVec w) (sh : BitVec 4) :
    (getField r fm sh).present = true ↔ ∀ k < w, fm.getLsbD k = true → r.mask.getLsbD k = true := by
  rw [← and_eq_right_iff]
  by_cases h : r.mask &&& fm = fm
  · simp [getField_present h, h]
  · simp [getField_absent h, h]

/-- An absent field reads as the sentinel (40_composer.md R83). -/
theorem data_of_not_present {r : Mrv w} {fm : BitVec w} {sh : BitVec 4} (h : (getField r fm sh).present = false) :
    (getField r fm sh).data = 0x00FF := by
  by_cases hm : r.mask &&& fm = fm
  · rw [getField_present hm] at h
    cases h
  · rw [getField_absent hm]

/-- The empty field is present and reads 0 (40_composer.md section 1, law 6). -/
theorem getField_empty (r : Mrv w) (sh : BitVec 4) : getField r 0#w sh = { present := true, data := 0 } := by
  rw [getField_present (by simp)]
  simp

/-- Two sets specify every field inside the union of their masks (40_composer.md section 1, law 3). -/
theorem present_of_union (r : Mrv w) {vA vB mA mB fm : BitVec w} {shA shB : BitVec 4} (h : fm &&& ~~~(mA ||| mB) = 0) (sh : BitVec 4) :
    (getField (setField (setField r vA mA shA) vB mB shB) fm sh).present = true := by
  rw [present_getField_iff]
  intro k hk hf
  have hbit := congrArg (·.getLsbD k) h
  have hAB : mA.getLsbD k = false → mB.getLsbD k = true := by
    simpa [hk, hf] using hbit
  cases hA : mA.getLsbD k
  · simp [hAB hA]
  · simp [hA]

/-- A field that was set stays present whatever is set after it (40_composer.md section 1, law 5). -/
theorem present_setField_setField (r : Mrv w) (vA vB mA mB : BitVec w) (shA shB sh : BitVec 4) :
    (getField (setField (setField r vA mA shA) vB mB shB) mA sh).present = true :=
  present_of_union r (by
    apply BitVec.eq_of_getLsbD_eq
    intro k _
    cases hA : mA.getLsbD k <;> simp [hA]) sh

/-- A second set of a field is as if the first had not been (40_composer.md section 1, law 4). -/
theorem setField_setField_same (hw : w ≤ 32) (r : Mrv w) (v v' m : BitVec w) (sh : BitVec 4) :
    setField (setField r v m sh) v' m sh = setField r v' m sh := by
  have hvalue : (setField (setField r v m sh) v' m sh).value = (setField r v' m sh).value := by
    apply BitVec.eq_of_getLsbD_eq
    intro k _
    simp only [getLsbD_setField_value hw]
    split <;> rfl
  have hmask : (setField (setField r v m sh) v' m sh).mask = (setField r v' m sh).mask := by
    simp [BitVec.or_assoc]
  exact congrArg₂ Mrv.mk hvalue hmask

/-- A set of a field that was set before leaves the mask (40_composer.md section 1, law 4). -/
theorem setField_setField_mask (r : Mrv w) (v v' m : BitVec w) (sh : BitVec 4) :
    (setField (setField r v m sh) v' m sh).mask = (setField r v m sh).mask := by
  simp [BitVec.or_assoc]

/-! ### Shifts past the width -/

/-- At width 8 a shift of 8 or more moves every bit out: a set inserts zero (40_composer.md R82). -/
theorem setField_narrow_of_ge {sh : BitVec 4} (h : 8 ≤ sh.toNat) (r : Mrv 8) (fv fm : Byte) :
    setField r fv fm sh = ⟨r.value &&& ~~~fm, r.mask ||| fm⟩ := by
  have hins : fieldInsert fv fm sh = 0 := by
    rw [fieldInsert_eq_shiftLeft_and (by decide), BitVec.shiftLeft_eq_zero h]
    simp
  rw [setField, hins, BitVec.ofNat_eq_ofNat, BitVec.or_zero]

/-- At width 8 a shift of 8 or more reads zero from a present field (40_composer.md R83). -/
theorem getField_narrow_of_ge {sh : BitVec 4} (h : 8 ≤ sh.toNat) {r : Mrv 8} {fm : Byte} (hp : r.mask &&& fm = fm) :
    getField r fm sh = { present := true, data := 0 } := by
  rw [getField_present hp, BitVec.ushiftRight_eq_zero h]
  rfl

end Sys2Proof.Machine
end

section
open Sys2Proof Sys2Proof.Machine

/-- Settles O20: the moved-up value is zero, and so is the moved-down field. -/
theorem narrowShiftOfEightOrMoreIsZero : Obligations.NarrowShiftOfEightOrMoreIsZero := by
  refine fun s fv fm sh h => ⟨setNarrow_of_setField fm sh (setField_narrow_of_ge h s.acc8 fv fm), fun hp => ?get⟩
  case get =>
    change getNarrow fm sh s = _
    rw [getNarrow, getField_narrow_of_ge h hp]
    rfl

/-- Settles O27: a get of the field that was set is present with the value cut to the mask, and the bits that come back are those that
land in it. -/
theorem fieldRoundTrip : Obligations.FieldRoundTrip := by
  refine ⟨fun s v m sh => ⟨_, _, _, rfl, rfl, ?data16, rfl, shiftLeft_and_ushiftRight_eq_iff (by decide) v m sh⟩,
    fun s v m sh => ⟨_, _, _, rfl, rfl, ?data8, rfl, shiftLeft_and_ushiftRight_eq_iff (by decide) v m sh⟩⟩
  case data16 => simp [getField_setField (w := 16)]
  case data8 => simp [getField_setField (w := 8)]

/-- Settles O28: under a disjoint mask a set leaves both parts of the pair, and a get looks at nothing else. -/
theorem disjointFieldsDoNotDisturb : Obligations.DisjointFieldsDoNotDisturb := by
  refine ⟨fun s v mA mB shA shB h => ⟨_, _, _, rfl, setField_value_and_of_disjoint (by decide) h s.acc16 v shB,
      setField_mask_and_of_disjoint h s.acc16 v shB, rfl, rfl, ?get16⟩,
    fun s v mA mB shA shB h => ⟨_, _, _, rfl, setField_value_and_of_disjoint (by decide) h s.acc8 v shB,
      setField_mask_and_of_disjoint h s.acc8 v shB, rfl, rfl, ?get8⟩⟩
  case get16 => simp [getField_setField_of_disjoint (w := 16) (by decide) h]
  case get8 => simp [getField_setField_of_disjoint (w := 8) (by decide) h]

/-- Settles O29: presence is the mask covering the field, and two sets add both their masks to it. -/
theorem presentIffEveryBitIsSpecified : Obligations.PresentIffEveryBitIsSpecified := by
  refine ⟨fun s fm sh => ⟨_, _, rfl, rfl, present_getField_iff s.acc16 fm sh, data_of_not_present⟩,
    fun s fm sh => ⟨_, _, rfl, rfl, present_getField_iff s.acc8 fm sh, data_of_not_present⟩, fun s sh => ⟨?empty16, ?empty8⟩,
    fun s _ _ _ _ _ _ _ sh h => ⟨_, _, _, _, rfl, rfl, rfl, rfl, present_of_union s.acc16 h sh⟩,
    fun s _ _ _ _ _ _ _ sh h => ⟨_, _, _, _, rfl, rfl, rfl, rfl, present_of_union s.acc8 h sh⟩⟩
  case empty16 =>
    change getWide 0#16 sh s = _
    rw [getWide, getField_empty]
    rfl
  case empty8 =>
    change getNarrow 0#8 sh s = _
    rw [getNarrow, getField_empty]
    rfl

/-- Settles O30: the later set decides under its own mask and leaves what lies outside it. -/
theorem laterSetReplacesUnderItsMask : Obligations.LaterSetReplacesUnderItsMask := by
  refine ⟨fun s v v' m sh => ⟨_, _, _, rfl, rfl, rfl, setField_setField_same (by decide) s.acc16 v v' m sh,
      setField_setField_mask s.acc16 v v' m sh⟩, ?overlap16,
    fun s v v' m sh => ⟨_, _, _, rfl, rfl, rfl, setField_setField_same (by decide) s.acc8 v v' m sh,
      setField_setField_mask s.acc8 v v' m sh⟩, ?overlap8⟩
  case overlap16 =>
    intro s vA vB mA mB shA shB
    refine ⟨_, _, _, _, rfl, rfl, ?_, ?_, rfl, rfl, present_setField_setField s.acc16 vA vB mA mB shA shB shA⟩
    · exact and_and_congr (setField_value_and_of_disjoint (by decide) (not_and_self mB) _ vB shB) mA
    · exact and_and_congr (setField_value_and_mask (by decide) _ vB mB shB) mA
  case overlap8 =>
    intro s vA vB mA mB shA shB
    refine ⟨_, _, _, _, rfl, rfl, ?_, ?_, rfl, rfl, present_setField_setField s.acc8 vA vB mA mB shA shB shA⟩
    · exact and_and_congr (setField_value_and_of_disjoint (by decide) (not_and_self mB) _ vB shB) mA
    · exact and_and_congr (setField_value_and_mask (by decide) _ vB mB shB) mA

end

section
/-! The driver commands written out (41_driver.md R118 to R128): their commits and reads at each verdict, and the register map. -/

namespace Sys2Proof.Machine

/-! ### The register map -/

/-- The addresses from 0x07 up hold no register (20_memory.md R41). -/
theorem at?_eq_none {a : Byte} (h : 7 ≤ a.toNat) : StoredReg.at? a = none ∧ InputReg.at? a = none := by
  revert a
  decide

/-- The register found at an address has that address (20_memory.md R41). -/
theorem address_of_at? {a : Byte} {r : StoredReg} (h : StoredReg.at? a = some r) : r.address = a := by
  simpa using List.find?_some h

/-- A write with a full mask at a stored register's address replaces that register (20_memory.md R43). -/
theorem memWrite_address (s : State) (r : StoredReg) (v : Word) : s.memWrite r.address v = .ok (s.setStored r v) := by
  rw [State.memWrite, memWriteMasked_address, State.mergeStored]
  exact congrArg (fun x => Except.ok (s.setStored r x)) (mux_full _ v)

/-- A read looks at the stored register or the pin of its address only (20_memory.md R42). -/
theorem memRead_congr {s t : State} {b : Byte} (hq : ∀ q, StoredReg.at? b = some q → t.stored q = s.stored q)
    (he : t.env = s.env) : t.memRead b = s.memRead b := by
  have hp (r : InputReg) : t.sampled r = s.sampled r := by simp [State.sampled, he]
  unfold State.memRead
  cases hb : StoredReg.at? b with
  | some q => simp [hq q hb]
  | none => cases InputReg.at? b <;> simp [hp]

/-- A masked write changes no read at another address (20_memory.md R44). -/
theorem memRead_of_memWriteMasked {s t : State} {a b : Byte} {v m : Word} (h : s.memWriteMasked a v m = .ok t) (hba : b ≠ a) :
    t.memRead b = s.memRead b := by
  unfold State.memWriteMasked at h
  cases ha : StoredReg.at? a with
  | none => cases hi : InputReg.at? a <;> simp [ha, hi] at h
  | some r =>
    obtain rfl : s.mergeStored r v m = t := by simpa [ha] using h
    refine memRead_congr (fun q hq => ?_) (mergeStored_env ..)
    have hrq : r ≠ q := fun hrq => hba ((address_of_at? hq).symm.trans (hrq ▸ address_of_at? ha))
    rw [stored_mergeStored, if_neg hrq]

/-! ### The mux at the driver's pairs -/

/-- A value of zeros clears every bit under the mask (20_memory.md R44). -/
theorem mux_zeros (old m : Word) : mux old 0x0000#16 m = old &&& ~~~m := by
  simp [mux]

/-- A value that is the mask sets every bit under it (20_memory.md R44). -/
theorem mux_self (old m : Word) : mux old m m = old ||| m := by
  apply BitVec.eq_of_getLsbD_eq
  intro i _
  rw [getLsbD_mux, BitVec.getLsbD_or]
  cases m.getLsbD i <;> simp

/-- Under its mask a merge leaves the value (20_memory.md R44). -/
theorem mux_and_self (old v m : Word) : mux old v m &&& m = v &&& m := by
  apply BitVec.eq_of_getLsbD_eq
  intro i _
  rw [BitVec.getLsbD_and, BitVec.getLsbD_and, getLsbD_mux]
  cases m.getLsbD i <;> simp

/-- Outside its mask a merge leaves the old word (20_memory.md R44). -/
theorem mux_and_of_disjoint {m k : Word} (h : k &&& m = 0) (old v : Word) : mux old v m &&& k = old &&& k := by
  apply BitVec.eq_of_getLsbD_eq
  intro i _
  rw [BitVec.getLsbD_and, BitVec.getLsbD_and, getLsbD_mux]
  cases hm : m.getLsbD i
  · simp
  · simp [getLsbD_of_disjoint h hm]

/-! ### A commit, written out -/

section

variable {s : State} {dev : BitVec 7} {r : StoredReg} {v m : Word} {after : State → State}

/-- A good commit, its register written out (20_memory.md R49). -/
theorem commit_success_of_mux {x : Word} (hx : mux (s.stored r) v m = x) (ha : s.env.answers = true) (ht : s.env.terr = 0) :
    commit dev r v m after s =
      .next ((after ((s.emit (commitEvent dev r v m)).setStored r x)).finish 0 0 false) := by
  rw [commit_success ha ht, State.mergeStored, stored_emit, hx]

/-- The event of a commit with a mask widened from eight bits (20_memory.md R45, R47). -/
theorem commitEvent_setWidth (dev : BitVec 7) (r : StoredReg) (v : Word) (m : Byte) :
    commitEvent dev r v (m.setWidth 16) = ⟨.rmw, dev, r.address, v, m.setWidth 16⟩ := by
  rw [commitEvent, commitKind_setWidth]

/-- A verdict other than 0 draws one free value for the register (20_memory.md R49). -/
theorem settle_draws (s : State) (r : StoredReg) (v m : Word) (terr : Byte) :
    (s.settle r v m terr).draws = if terr = 0 then s.draws else s.draws + 1 := by
  obtain ⟨ht, h⟩ | ⟨ht, h⟩ := settle_cases s r v m terr <;> rw [h]
  · rw [mergeStored_draws, if_pos ht]
  · rw [scramble_draws, if_neg ht]

/-- Besides the stored registers and the count of draws a settled commit is the state it began with (20_memory.md R49). -/
theorem settle_frame (s : State) (r : StoredReg) (v m : Word) (terr : Byte) :
    s.settle r v m terr = { s with
      conf := (s.settle r v m terr).conf, wh := (s.settle r v m terr).wh, wl := (s.settle r v m terr).wl
      psconf := (s.settle r v m terr).psconf, draws := (s.settle r v m terr).draws } := by
  obtain ⟨_, h⟩ | ⟨_, h⟩ := settle_cases s r v m terr <;> rw [h] <;> cases r <;> rfl

/-- What an answered commit leaves in its register (20_memory.md R49; 41_driver.md R118). -/
theorem exec_commit_stored {i : Instr} (hi : CommitOf s i dev r v m after) (ha : s.env.answers = true) :
    ∃ u, exec i s = .next u ∧ u.stored r = if s.env.terr = 0 then mux (s.stored r) v m else s.unspec := by
  refine ⟨_, (exec_of_commitOf hi).trans (commit_answered ha), ?_⟩
  rw [stored_finish, hi.stored_after, stored_settle, if_pos rfl, stored_emit]
  rfl

end

/-! ### Transactions without an answer -/

/-- A writing driver command that the transport does not answer (70_reset_and_hazards.md R170). -/
theorem exec_silent_of_commitOf {s : State} {i : Instr} {dev : BitVec 7} {r : StoredReg} {v m : Word} {after : State → State}
    (hi : CommitOf s i dev r v m after) (ha : s.env.answers = false) :
    exec i s = .next (s.emit (commitEvent dev r v m)).await :=
  (exec_of_commitOf hi).trans (commit_silent ha)

/-- A reading driver command that the transport does not answer (70_reset_and_hazards.md R170). -/
theorem exec_silent_of_readOf {s : State} {i : Instr} {r : InputReg} (hi : ReadOf i r) (hb : s.bound = true)
    (ha : s.env.answers = false) : exec i s = .next (s.emit (readEvent s.addr r)).await :=
  (exec_of_readOf hi hb).trans (readInput_silent ha)

/-! ### Selectors and flags -/

/-- A selector that names no channel is neither channel's (41_driver.md R127). -/
theorem ne_channel_of_none {ch : Byte} (h : channel? ch = none) : ch ≠ 0x04 ∧ ch ≠ 0x05 := by
  constructor <;> rintro rfl <;> cases h

/-- The low-threshold event is the top bit of the interrupt-status word (10_state.md R30). -/
theorem intThLow_eq (v : Word) : intThLow v = decide (0x8000 ≤ v.toNat) := by
  rw [← show v.msb = _ from BitVec.msb_eq_decide v, BitVec.msb_eq_getLsbD_last]
  rfl

end Sys2Proof.Machine
end

section
open Sys2Proof Sys2Proof.Machine

/-- Settles O34: the registers at their addresses, the addresses that hold none, and the merge of one register by a write at its. -/
theorem rawRegisterAccess : Obligations.RawRegisterAccess := by
  refine ⟨fun s => ⟨rfl, rfl, rfl, rfl, rfl, rfl, rfl⟩, ?none, ?readOnly,
    fun s v => ⟨memWrite_address s .conf v, memWrite_address s .wh v, memWrite_address s .wl v, memWrite_address s .psconf v⟩,
    fun _ _ _ _ _ _ => memRead_of_memWriteMasked⟩
  case none =>
    intro s a v m h
    obtain ⟨hs, hi⟩ := at?_eq_none h
    exact ⟨by simp [State.memRead, hs, hi], by simp [State.memWriteMasked, hs, hi]⟩
  case readOnly =>
    rintro s a v m (rfl | rfl | rfl) <;> rfl

/-- Settles O35: an answered commit is its event, then the verdict settled on its register. -/
theorem commitTakesOneVerdict : Obligations.CommitTakesOneVerdict := by
  intro dev r v m after s ha
  refine ⟨(s.emit (commitEvent dev r v m)).settle r v m s.env.terr, commit_answered ha, settle_events .., ?own, settle_draws ..,
    ?others, ?frame⟩
  case own =>
    rw [stored_settle, if_pos rfl, stored_emit]
    rfl
  case others =>
    intro q hq
    rw [stored_settle, if_neg hq.symm, stored_emit]
  case frame =>
    rw [settle_events]
    exact settle_frame ..

/-- Settles O13: each transacting command leaves its event and a waiting block. -/
theorem silentTransportLeavesBlockWaiting : Obligations.SilentTransportLeavesBlockWaiting := by
  refine fun s ha => ⟨fun address => exec_silent_of_commitOf (.begin address) ha, fun hb => ⟨exec_silent_of_commitOf (.wakeup hb) ha,
    exec_silent_of_commitOf (.shutdown hb) ha, fun v => exec_silent_of_commitOf (.setht hb v) ha,
    fun v => exec_silent_of_commitOf (.setlt hb v) ha, exec_silent_of_commitOf (.setconfig hb) ha, ?setpsconfig,
    exec_silent_of_readOf .white hb ha, exec_silent_of_readOf .als hb ha, exec_silent_of_readOf .intstat hb ha⟩⟩
  case setpsconfig =>
    rw [exec_silent_of_commitOf (.setpsconfig hb) ha, commitEvent_setWidth]
    rfl

/-- Settles O37: BEGIN without its flag only binds; with it, it is the commit of (0, 1) to CONF under the new address. -/
theorem beginBindsAndMayWake : Obligations.BeginBindsAndMayWake :=
  ⟨fun _ _ _ _ => decode_c48_op .beginBind .., fun _ _ => rfl,
    fun _ address ha ht => (exec_of_commitOf (.begin address)).trans (commit_success_of_mux (mux_zeros _ _) ha ht),
    fun _ address ha ht => (exec_of_commitOf (.begin address)).trans (commit_failure ha ht)⟩

/-- Settles O38: the two commands are the commits of (0, 1) and (1, 1) to CONF. -/
theorem wakeupAndShutdownTouchOneBit : Obligations.WakeupAndShutdownTouchOneBit :=
  ⟨fun _ _ _ _ => ⟨decode_c48_op .wakeup .., decode_c48_op .shutdown ..⟩,
    fun _ hb => ⟨exec_unbound rfl hb, exec_unbound rfl hb⟩,
    fun _ hb ha ht => ⟨(exec_of_commitOf (.wakeup hb)).trans (commit_success_of_mux (mux_zeros _ _) ha ht),
      (exec_of_commitOf (.shutdown hb)).trans (commit_success_of_mux (mux_self _ _) ha ht)⟩,
    fun _ hb ha ht => ⟨(exec_of_commitOf (.wakeup hb)).trans (commit_failure ha ht),
      (exec_of_commitOf (.shutdown hb)).trans (commit_failure ha ht)⟩⟩

/-- Settles O39: the two commands are full-mask commits to WH and WL. -/
theorem thresholdWritesAreFull : Obligations.ThresholdWritesAreFull :=
  ⟨fun _ _ _ _ => ⟨decode_c48_op .setht .., decode_c48_op .setlt ..⟩,
    fun _ _ hb => ⟨exec_unbound rfl hb, exec_unbound rfl hb⟩,
    fun _ v hb ha ht => ⟨(exec_of_commitOf (.setht hb v)).trans (commit_success_of_mux (mux_full _ _) ha ht),
      (exec_of_commitOf (.setlt hb v)).trans (commit_success_of_mux (mux_full _ _) ha ht)⟩,
    fun _ v hb ha ht => ⟨(exec_of_commitOf (.setht hb v)).trans (commit_failure ha ht),
      (exec_of_commitOf (.setlt hb v)).trans (commit_failure ha ht)⟩⟩

/-- Settles O40: SETCONFIG is the commit of `ACC16` to CONF, and leaves a fresh pair at either verdict. -/
theorem setconfigCommitsAndConsumes : Obligations.SetconfigCommitsAndConsumes :=
  ⟨fun _ _ _ _ => decode_c48_op .setconfig .., fun _ hb => exec_unbound rfl hb,
    fun _ hb ha ht => (exec_of_commitOf (.setconfig hb)).trans (commit_success ha ht),
    fun _ hb ha ht => (exec_of_commitOf (.setconfig hb)).trans (commit_failure ha ht)⟩

/-- Settles O41: SETPSCONFIG is the commit of `ACC8`, widened, to PSCONF; the mux then works on the low byte alone, and the mask is
never full. -/
theorem setpsconfigCommitsAndConsumes : Obligations.SetpsconfigCommitsAndConsumes := by
  refine ⟨fun _ _ _ _ => decode_c48_op .setpsconfig .., fun _ hb => exec_unbound rfl hb, ?good, ?bad⟩
  case good =>
    intro s hb ha ht
    rw [exec_of_commitOf (.setpsconfig hb), commit_success_of_mux (mux_narrow ..) ha ht, commitEvent_setWidth]
    rfl
  case bad =>
    intro s hb ha ht
    rw [exec_of_commitOf (.setpsconfig hb), commit_failure ha ht, commitEvent_setWidth]
    rfl

/-- Settles O42: the two selectors are reads, and every other one names no channel. -/
theorem channelReads : Obligations.ChannelReads := by
  refine ⟨fun _ _ _ _ => decode_c48_op .getch .., fun _ _ hb => exec_unbound rfl hb, ?good, ?bad,
    fun s ch hb hw ha => exec_getch_badChannel hb (channel?_eq_none hw ha), ?count⟩
  case good =>
    exact fun s hb ha ht => ⟨(exec_of_readOf .white hb).trans (readInput_success ha ht),
      (exec_of_readOf .als hb).trans (readInput_success ha ht)⟩
  case bad =>
    exact fun s hb ha ht => ⟨(exec_of_readOf .white hb).trans (readInput_failure ha ht),
      (exec_of_readOf .als hb).trans (readInput_failure ha ht)⟩
  case count => decide +kernel

/-- Settles O43: GETINTEVT is a read, and the low-threshold event is the word's top bit. -/
theorem interruptEventRead : Obligations.InterruptEventRead :=
  ⟨fun _ _ _ _ => decode_c48_op .getintevt .., fun _ hb => exec_unbound rfl hb,
    fun _ hb ha ht => (exec_of_readOf .intstat hb).trans (readInput_success ha ht),
    fun _ hb ha ht => (exec_of_readOf .intstat hb).trans (readInput_failure ha ht),
    fun v => ⟨by simp [intThHigh], intThLow_eq v⟩⟩

/-- Settles O45: of the shapes of a command's outcome, one that transacts reports its verdict, GETCH's bad selector reports 8, and every
other one reports success. -/
theorem resultCodeIsVerdictSuccessOrEight : Obligations.ResultCodeIsVerdictSuccessOrEight := by
  intro i s t r h hr
  cases exec_shape i s with
  | wide _ _ ho | narrow _ _ ho | get _ _ _ ho | bind _ _ ho =>
    cases ho.symm.trans h
    cases hr
    exact ⟨rfl, .inl ⟨rfl, rfl⟩⟩
  | badChannel ch _ hi hc ho =>
    cases ho.symm.trans h
    cases hr
    exact ⟨rfl, .inr (.inl ⟨rfl, rfl, ch, hi, ne_channel_of_none hc⟩)⟩
  | unbound _ _ ho => cases ho.symm.trans h
  | commits _ _ _ _ _ hi ho =>
    have hev := commit_events hi (ho.symm.trans h)
    obtain ⟨_, hn⟩ | ⟨_, hn⟩ := commit_cases (ho.symm.trans h) <;> cases hn <;> cases hr
    exact ⟨rfl, .inr (.inr ⟨⟨_, hev⟩, rfl⟩)⟩
  | reads _ _ _ ho =>
    have hev := readInput_events (ho.symm.trans h)
    obtain ⟨_, ht, hn⟩ | ⟨_, _, hn⟩ | ⟨_, hn⟩ := readInput_cases (ho.symm.trans h) <;> cases hn <;> cases hr
    · exact ⟨rfl, .inr (.inr ⟨⟨_, hev⟩, ht.symm⟩)⟩
    · exact ⟨rfl, .inr (.inr ⟨⟨_, hev⟩, rfl⟩)⟩

end

section
/-! Commands in sequence: a composed pair and its commit (40_composer.md section 4; 41_driver.md section 4; 70_reset_and_hazards.md
section 3; 90_conflicts.md C2). -/

namespace Sys2Proof.Machine

/-! ### A field, through the composer and the mux -/

/-- Inside its mask a merge shows the value's field (20_memory.md R44). -/
theorem extractLsb'_mux_of_mask {m : Word} {p n : Nat} (h : ∀ k < n, m.getLsbD (p + k) = true) (old v : Word) :
    (mux old v m).extractLsb' p n = v.extractLsb' p n := by
  apply BitVec.eq_of_getLsbD_eq
  intro k hk
  rw [BitVec.getLsbD_extractLsb', BitVec.getLsbD_extractLsb', getLsbD_mux, if_pos (h k hk)]

/-- A set shows its operand at its shift, where its mask covers the field (40_composer.md R82). -/
theorem extractLsb'_setField_same {w : Nat} (hw : w ≤ 32) {fm : BitVec w} {sh : BitVec 4} {n : Nat}
    (h : ∀ k < n, fm.getLsbD (sh.toNat + k) = true) (r : Mrv w) (fv : BitVec w) :
    (setField r fv fm sh).value.extractLsb' sh.toNat n = fv.setWidth n := by
  apply BitVec.eq_of_getLsbD_eq
  intro k hk
  rw [BitVec.getLsbD_extractLsb', getLsbD_setField_value hw, if_pos (h k hk), BitVec.getLsbD_setWidth]
  simp

/-- A set leaves a field outside its mask (40_composer.md R82). -/
theorem extractLsb'_setField_other {w : Nat} (hw : w ≤ 32) {fm : BitVec w} {p n : Nat}
    (h : ∀ k < n, fm.getLsbD (p + k) = false) (r : Mrv w) (fv : BitVec w) (sh : BitVec 4) :
    (setField r fv fm sh).value.extractLsb' p n = r.value.extractLsb' p n := by
  apply BitVec.eq_of_getLsbD_eq
  intro k hk
  rw [BitVec.getLsbD_extractLsb', BitVec.getLsbD_extractLsb', getLsbD_setField_value hw, h k hk]
  simp

/-- A field of one bit, as a flag. -/
theorem getLsbD_of_extractLsb'_one {w n p : Nat} {x : BitVec w} {v : BitVec n} (h : x.extractLsb' p 1 = v.setWidth 1) :
    x.getLsbD p = v.getLsbD 0 := by
  have hbit := congrArg (·.getLsbD 0) h
  simpa using hbit

/-- A field of a byte, of the byte widened. -/
theorem extractLsb'_setWidth_16 {p n : Nat} (v : Byte) :
    (v.setWidth 16 : Word).extractLsb' p n = v.extractLsb' p n := by
  apply BitVec.eq_of_getLsbD_eq
  intro k hk
  rw [BitVec.getLsbD_extractLsb', BitVec.getLsbD_extractLsb', BitVec.getLsbD_setWidth]
  by_cases h : p + k < 16
  · simp [h]
  · simp [h, BitVec.getLsbD_of_ge v (p + k) (by omega)]

/-! ### The commits of the two accumulators -/

/-- SETCONFIG of a Bound block with verdict 0: CONF, the event and the consumed pair (41_driver.md R125). -/
theorem exec_setconfig_success {s : State} (hb : s.bound = true) (ha : s.env.answers = true) (ht : s.env.terr = 0) :
    ∃ u, exec .setconfig s = .next u ∧ u.conf = mux s.conf s.acc16.value s.acc16.mask ∧
      u.events = s.events ++ [commitEvent s.addr .conf s.acc16.value s.acc16.mask] ∧ u.acc16 = ⟨0, 0⟩ :=
  ⟨_, (exec_setconfig_bound hb).trans (commit_success ha ht), rfl, rfl, rfl⟩

/-- SETCONFIG of a Bound block with another verdict: CONF is a free value, the block stays Bound (20_memory.md R49). -/
theorem exec_setconfig_failure {s : State} (hb : s.bound = true) (ha : s.env.answers = true) (ht : s.env.terr ≠ 0) :
    ∃ t, exec .setconfig s = .next t ∧ t.conf = s.unspec ∧ t.bound = true ∧ t.addr = s.addr :=
  ⟨_, (exec_setconfig_bound hb).trans (commit_failure ha ht), rfl, hb, rfl⟩

/-- SETPSCONFIG of a Bound block with verdict 0: PSCONF and the consumed pair (41_driver.md R126). -/
theorem exec_setpsconfig_success {s : State} (hb : s.bound = true) (ha : s.env.answers = true) (ht : s.env.terr = 0) :
    ∃ u, exec .setpsconfig s = .next u ∧
      u.psconf = mux s.psconf (s.acc8.value.setWidth 16) (s.acc8.mask.setWidth 16) ∧ u.acc8 = ⟨0, 0⟩ :=
  ⟨_, (exec_of_commitOf (.setpsconfig hb)).trans (commit_success ha ht), rfl, rfl⟩

/-- A load and its commit with verdict 0 (40_composer.md R88; 41_driver.md R125). -/
theorem load_then_setconfig {s : State} (v m : Word) (hb : s.bound = true) (ha : s.env.answers = true) (ht : s.env.terr = 0) :
    ∃ x y, exec (.mld16 v m) s = .next x ∧ exec .setconfig x = .next y ∧ y.conf = mux s.conf v m ∧
      y.events = s.events ++ [commitEvent s.addr .conf v m] := by
  obtain ⟨y, hy, hconf, hev, _⟩ := exec_setconfig_success (s := (s.setAcc16 ⟨v, m⟩).done) hb ha ht
  exact ⟨_, y, rfl, hy, hconf, hev⟩

/-! ### SETSD -/

/-- SETSD, written out: bit 0 of the operand, unshifted (40_composer.md R98). -/
theorem setField_sd (r : Mrv 16) (v : Word) :
    setField r v fieldSd.mask fieldSd.shift = ⟨(r.value &&& 0xFFFE) ||| (v &&& 0x0001), r.mask ||| 0x0001⟩ := by
  have hins : fieldInsert v fieldSd.mask fieldSd.shift = v &&& 0x0001#16 := by
    simp [fieldInsert_eq_shiftLeft_and, fieldSd]
  rw [setField, hins]
  rfl

/-- SETSD on a fresh accumulator, then SETCONFIG: the commit of bit 0 at either verdict (40_composer.md R98; 41_driver.md R125). -/
theorem setsd_then_setconfig {s : State} (v : Word) (hb : s.bound = true) (ha : s.env.answers = true) (hf : s.acc16 = ⟨0, 0⟩) :
    ∃ t u, exec (.setsd v) s = .next t ∧ exec .setconfig t = .next u ∧
      u.conf = if s.env.terr = 0 then mux s.conf (v &&& 0x0001) 0x0001 else s.unspec := by
  have hacc : setField s.acc16 v fieldSd.mask fieldSd.shift = ⟨v &&& 0x0001, 0x0001⟩ := by
    rw [setField_sd, hf]
    simp
  obtain ⟨u, hu, hconf⟩ := exec_commit_stored (s := (s.setAcc16 ⟨v &&& 0x0001, 0x0001⟩).done) (.setconfig hb) ha
  exact ⟨_, u, setWide_of_setField _ _ hacc, hu, hconf⟩

/-! ### The fields of a register, composed -/

/-- The five fields of CONF set in a pair (10_state.md R25). -/
def setFiveFields (r : Mrv 16) (g t p n d : Word) : Mrv 16 :=
  setField (setField (setField (setField (setField r g fieldGain.mask fieldGain.shift) t fieldIt.mask fieldIt.shift)
    p fieldPers.mask fieldPers.shift) n fieldIntEn.mask fieldIntEn.shift) d fieldSd.mask fieldSd.shift

/-- The five commands leave the pair with the five fields set (40_composer.md R94 to R98). -/
theorem exec_fiveFields (s : State) (g t p n d : Word) :
    ∃ s1 s2 s3 s4, exec (.setgain g) s = .next s1 ∧ exec (.setit t) s1 = .next s2 ∧ exec (.setpers p) s2 = .next s3 ∧
      exec (.setint n) s3 = .next s4 ∧ exec (.setsd d) s4 = .next (s.setAcc16 (setFiveFields s.acc16 g t p n d)).done :=
  ⟨_, _, _, _, rfl, rfl, rfl, rfl, rfl⟩

section

variable (r : Mrv 16) (g t p n d : Word)

/-- The five fields of a fresh pair make the mask 0x1BF3 (90_conflicts.md C2). -/
theorem setFiveFields_mask (hf : r.mask = 0) : (setFiveFields r g t p n d).mask = 0x1BF3 := by
  simp [setFiveFields, hf, fieldGain, fieldIt, fieldPers, fieldIntEn, fieldSd]

/-- GAIN of the composed value. -/
theorem setFiveFields_gain : (setFiveFields r g t p n d).value.extractLsb' 11 2 = g.setWidth 2 := by
  rw [setFiveFields, extractLsb'_setField_other (by decide) (by decide), extractLsb'_setField_other (by decide) (by decide),
    extractLsb'_setField_other (by decide) (by decide), extractLsb'_setField_other (by decide) (by decide)]
  exact extractLsb'_setField_same (sh := fieldGain.shift) (by decide) (by decide) ..

/-- IT of the composed value. -/
theorem setFiveFields_it : (setFiveFields r g t p n d).value.extractLsb' 6 4 = t.setWidth 4 := by
  rw [setFiveFields, extractLsb'_setField_other (by decide) (by decide), extractLsb'_setField_other (by decide) (by decide),
    extractLsb'_setField_other (by decide) (by decide)]
  exact extractLsb'_setField_same (sh := fieldIt.shift) (by decide) (by decide) ..

/-- PERS of the composed value. -/
theorem setFiveFields_pers : (setFiveFields r g t p n d).value.extractLsb' 4 2 = p.setWidth 2 := by
  rw [setFiveFields, extractLsb'_setField_other (by decide) (by decide), extractLsb'_setField_other (by decide) (by decide)]
  exact extractLsb'_setField_same (sh := fieldPers.shift) (by decide) (by decide) ..

/-- INT_EN of the composed value. -/
theorem setFiveFields_intEn : (setFiveFields r g t p n d).value.extractLsb' 1 1 = n.setWidth 1 := by
  rw [setFiveFields, extractLsb'_setField_other (by decide) (by decide)]
  exact extractLsb'_setField_same (sh := fieldIntEn.shift) (by decide) (by decide) ..

/-- SD of the composed value. -/
theorem setFiveFields_sd : (setFiveFields r g t p n d).value.extractLsb' 0 1 = d.setWidth 1 :=
  extractLsb'_setField_same (sh := fieldSd.shift) (by decide) (by decide) ..

end

/-- The two power-saving fields set in a pair (10_state.md R25). -/
def setPowerSaving (r : Mrv 8) (p n : Byte) : Mrv 8 :=
  setField (setField r p fieldPsm.mask fieldPsm.shift) n fieldPsmEn.mask fieldPsmEn.shift

section

variable (r : Mrv 8) (p n : Byte)

/-- The two fields of a fresh pair make the mask 0x07. -/
theorem setPowerSaving_mask (hf : r.mask = 0) : (setPowerSaving r p n).mask = 0x07 := by
  simp [setPowerSaving, hf, fieldPsm, fieldPsmEn]

/-- PSM of the composed value. -/
theorem setPowerSaving_psm : (setPowerSaving r p n).value.extractLsb' 1 2 = p.setWidth 2 := by
  rw [setPowerSaving, extractLsb'_setField_other (by decide) (by decide)]
  exact extractLsb'_setField_same (sh := fieldPsm.shift) (by decide) (by decide) ..

/-- PSM_EN of the composed value. -/
theorem setPowerSaving_psmEn : (setPowerSaving r p n).value.extractLsb' 0 1 = n.setWidth 1 :=
  extractLsb'_setField_same (sh := fieldPsmEn.shift) (by decide) (by decide) ..

end

end Sys2Proof.Machine
end

section
open Sys2Proof Sys2Proof.Machine

/-- Settles O22: SETSD inserts one unshifted bit, and its commit from a fresh accumulator is the commit of WAKEUP or of SHUTDOWN. -/
theorem setsdComposesTheShutdownBit : Obligations.SetsdComposesTheShutdownBit := by
  refine ⟨fun _ _ _ _ => decode_c48_op .setsd .., fun s v => ⟨setWide_of_setField _ _ (setField_sd s.acc16 v), ?lowBit⟩,
    fun s hb ha hf => ⟨?wakeup, ?shutdown⟩⟩
  case lowBit =>
    have hsd : (0x0001#16) <<< fieldSd.shift.toNat &&& fieldSd.mask = fieldSd.mask := by decide
    exact (setWide_and_of_covers hsd v s).symm
  case wakeup =>
    obtain ⟨t, u, ht, hu, hconf⟩ := setsd_then_setconfig 0x0000 hb ha hf
    obtain ⟨x, hx, hxconf⟩ := exec_commit_stored (.wakeup hb) ha
    exact ⟨t, u, x, ht, hu, hx, hconf.trans hxconf.symm⟩
  case shutdown =>
    obtain ⟨t, u, ht, hu, hconf⟩ := setsd_then_setconfig 0x0001 hb ha hf
    obtain ⟨x, hx, hxconf⟩ := exec_commit_stored (.shutdown hb) ha
    exact ⟨t, u, x, ht, hu, hx, hconf.trans hxconf.symm⟩

/-- Settles O46: the composed mask leaves the reserved bits to the mux, and each field of the composed value is its operand's. -/
theorem fiveFieldsCommitKeepsReservedBits : Obligations.FiveFieldsCommitKeepsReservedBits := by
  intro s g t p n d hb ha ht hf
  obtain ⟨s1, s2, s3, s4, h1, h2, h3, h4, h5⟩ := exec_fiveFields s g t p n d
  obtain ⟨u, hu, hconf, hev, hacc⟩ :=
    exec_setconfig_success (s := (s.setAcc16 (setFiveFields s.acc16 g t p n d)).done) hb ha ht
  have hmask : (setFiveFields s.acc16 g t p n d).mask = 0x1BF3 := setFiveFields_mask _ _ _ _ _ _ (congrArg Mrv.mask hf)
  simp only [done_conf, done_acc16, done_events, done_addr, setAcc16_conf, setAcc16_acc16, setAcc16_events, setAcc16_addr,
    hmask] at hconf hev
  have hfield {k l : Nat} (hin : ∀ j < l, (0x1BF3#16).getLsbD (k + j) = true) :
      u.conf.extractLsb' k l = (setFiveFields s.acc16 g t p n d).value.extractLsb' k l :=
    hconf ▸ extractLsb'_mux_of_mask hin _ _
  refine ⟨s1, s2, s3, s4, _, u, h1, h2, h3, h4, h5, hu, hmask, hev, ?reserved, ?gain, ?it, ?pers, ?intEn, ?sd, hacc⟩
  case reserved =>
    rw [hconf]
    exact mux_and_of_disjoint (by decide) _ _
  case gain => exact (hfield (by decide)).trans (setFiveFields_gain ..)
  case it => exact (hfield (by decide)).trans (setFiveFields_it ..)
  case pers => exact (hfield (by decide)).trans (setFiveFields_pers ..)
  case intEn => exact getLsbD_of_extractLsb'_one ((hfield (by decide)).trans (setFiveFields_intEn ..))
  case sd => exact getLsbD_of_extractLsb'_one ((hfield (by decide)).trans (setFiveFields_sd ..))

/-- Settles O47: the failed commit leaves a free value in CONF, and the second one merges over it. -/
theorem fullCommitRestoresAfterFailure : Obligations.FullCommitRestoresAfterFailure := by
  intro s v m e hb ha ht ha' ht'
  obtain ⟨t, hx, htc, htb, hta⟩ := exec_setconfig_failure hb ha ht
  refine ⟨t, hx, ?full, ?partly⟩
  case full =>
    obtain ⟨x, y, hx, hy, hconf, hev⟩ := load_then_setconfig (s := { t with env := e }) v 0xFFFF htb ha' ht'
    exact ⟨x, y, hx, hy, hconf.trans (mux_full _ v), hta ▸ hev⟩
  case partly =>
    obtain ⟨x, y, hx, hy, hconf, _⟩ := load_then_setconfig (s := { t with env := e }) v m htb ha' ht'
    have hy' : y.conf = mux (Config.junk s.draws) v m := hconf.trans (congrArg (mux · v m) htc)
    exact ⟨x, y, hx, hy, hy' ▸ mux_and_self _ v m, hy' ▸ mux_and_of_disjoint (not_and_self m) _ v⟩

/-- Settles O48: each power-saving field of the composed value is its operand's, and the composed mask leaves the rest to the mux. -/
theorem powerSavingFieldsAppearOnOutputs : Obligations.PowerSavingFieldsAppearOnOutputs := by
  intro s p n hb ha ht hf
  obtain ⟨u, hu, hps, hacc⟩ := exec_setpsconfig_success (s := (s.setAcc8 (setPowerSaving s.acc8 p n)).done) hb ha ht
  have hmask : (setPowerSaving s.acc8 p n).mask = 0x07 := setPowerSaving_mask _ _ _ (congrArg Mrv.mask hf)
  simp only [done_psconf, done_acc8, setAcc8_psconf, setAcc8_acc8, hmask] at hps
  have hfield {k l : Nat} (hin : ∀ j < l, ((0x07#8).setWidth 16 : Word).getLsbD (k + j) = true) :
      u.psconf.extractLsb' k l = (setPowerSaving s.acc8 p n).value.extractLsb' k l := by
    rw [hps, ← extractLsb'_setWidth_16]
    exact extractLsb'_mux_of_mask hin _ _
  refine ⟨_, _, u, rfl, rfl, hu, ?psm, ?psmEn, ?rest, hacc⟩
  case psm => exact (hfield (by decide)).trans (setPowerSaving_psm ..)
  case psmEn => exact getLsbD_of_extractLsb'_one ((hfield (by decide)).trans (setPowerSaving_psmEn ..))
  case rest =>
    change u.psconf &&& _ = _
    rw [hps]
    exact mux_and_of_disjoint (by decide) _ _

/-- Settles O49: the mux cuts the value to the mask by itself, and a free value takes nothing from either run's. -/
theorem commitIgnoresBitsOutsideMask : Obligations.CommitIgnoresBitsOutsideMask := by
  refine fun s hb ha => ⟨?conf, ?psconf⟩
  case conf =>
    obtain ⟨t, ht, htc⟩ := exec_commit_stored (.setconfig hb) ha
    obtain ⟨u, hu, huc⟩ := exec_commit_stored (s := { s with acc16 := ⟨s.acc16.value &&& s.acc16.mask, s.acc16.mask⟩ })
      (.setconfig hb) ha
    rw [mux_and_mask] at huc
    exact ⟨t, u, ht, hu, huc.trans htc.symm⟩
  case psconf =>
    obtain ⟨t, ht, htc⟩ := exec_commit_stored (.setpsconfig hb) ha
    obtain ⟨u, hu, huc⟩ := exec_commit_stored (s := { s with acc8 := ⟨s.acc8.value &&& s.acc8.mask, s.acc8.mask⟩ })
      (.setpsconfig hb) ha
    rw [BitVec.setWidth_and, mux_and_mask] at huc
    exact ⟨t, u, ht, hu, huc.trans htc.symm⟩

end
